-- ==== Sys2Proof/Word.lean ====
section
/-! DEFINITION. The word types of the SC16 (spec/00 0.4: a word is 16 bits; all traffic is in words). -/

namespace Sys2Proof

/-- A word of the control port or of a stream port: 16 bits (spec/00 0.4). -/
abbrev Word := BitVec 16

/-- Eight bits: half a word, an opcode, a generation, a sequence number, a job id. -/
abbrev Byte := BitVec 8

/-- A pixel is one word (spec/11 Table 11-1); every 16-bit value is a pixel. -/
abbrev Pixel := Word

end Sys2Proof
end

