-- ==== Sys2Proof/Syntax.lean ====
section
/-! DEFINITION. The steps of the SC16: one constructor of `Instr` for each row of spec/opcode_table.json. -/

namespace Sys2Proof

/-- The number of a stream port, S0..S3 (spec/07). -/
abbrev PortNum := Fin 4

/-- The control-port locations whose writes are ignored (spec/09 R156). -/
inductive ReadOnlyLocation where
  | resp
  | compl
  | queueStatus
  | deviceStatus
  deriving DecidableEq, Repr

/-- The commands of spec/09 Table 9-4. -/
inductive Command where
  | openSurface
  | closeSurface
  | querySurface
  | queryPool
  | pixelRead
  | setPosition
  | setLook
  | setBackground
  | commit
  | discard
  | queryStaging
  | place
  | unplace
  | queryOrder
  | panelSetup
  | panelStart
  | panelStop
  | queryPanel
  | post
  | bind
  | unbind
  | portConfig
  | queryPort
  | fill
  | copyForward
  | sceneReset
  deriving DecidableEq, Repr

/-- The rows of spec/opcode_table.json.

A row of Table 9-4 is the command as the processor gives it: the low byte of its command word (bits 7:4 not
examined, bits 3:0 the length field, spec/11 Table 11-2) and its parameter words in the order of Table 11-4. The
words are written to CMD one after another (DESIGN CHOICE, log 1). -/
inductive Instr where
  /-- OPEN (R8): mode, SW, SH, x, y, look, fill colour. -/
  | openSurface (low : Byte) (params : List Word)
  /-- CLOSE (R13): handle. -/
  | closeSurface (low : Byte) (params : List Word)
  /-- QUERY_SURFACE (R22): handle. -/
  | querySurface (low : Byte) (params : List Word)
  /-- QUERY_POOL (R39). -/
  | queryPool (low : Byte) (params : List Word)
  /-- PIXEL_READ (R37): handle, buffer selector, x, y. -/
  | pixelRead (low : Byte) (params : List Word)
  /-- PIXEL_READ_COMPLETE (R38): the granted read completes. -/
  | pixelReadComplete
  /-- SET_POSITION (R44): handle, x, y. -/
  | setPosition (low : Byte) (params : List Word)
  /-- SET_LOOK (R45): handle, look. -/
  | setLook (low : Byte) (params : List Word)
  /-- SET_BACKGROUND (R46): colour. -/
  | setBackground (low : Byte) (params : List Word)
  /-- COMMIT (R49). -/
  | commit (low : Byte) (params : List Word)
  /-- DISCARD (R57). -/
  | discard (low : Byte) (params : List Word)
  /-- QUERY_STAGING (R59). -/
  | queryStaging (low : Byte) (params : List Word)
  /-- PLACE (R64): handle, where, anchor handle. -/
  | place (low : Byte) (params : List Word)
  /-- UNPLACE (R66): handle. -/
  | unplace (low : Byte) (params : List Word)
  /-- QUERY_ORDER (R67). -/
  | queryOrder (low : Byte) (params : List Word)
  /-- PANEL_SETUP (R78): AW, AH, HB, VB, timing. -/
  | panelSetup (low : Byte) (params : List Word)
  /-- PANEL_START (R81). -/
  | panelStart (low : Byte) (params : List Word)
  /-- PANEL_STOP (R83). -/
  | panelStop (low : Byte) (params : List Word)
  /-- QUERY_PANEL (R90). -/
  | queryPanel (low : Byte) (params : List Word)
  /-- POST (R96): handle. -/
  | post (low : Byte) (params : List Word)
  /-- BIND (R132): port, handle. -/
  | bind (low : Byte) (params : List Word)
  /-- UNBIND (R133): port. -/
  | unbind (low : Byte) (params : List Word)
  /-- PORT_CONFIG (R136): port, idle timeout. -/
  | portConfig (low : Byte) (params : List Word)
  /-- QUERY_PORT (R137): port. -/
  | queryPort (low : Byte) (params : List Word)
  /-- FILL (R144): handle, buffer selector, x, y, width, height, colour. -/
  | fill (low : Byte) (params : List Word)
  /-- COPY_FORWARD (R145): handle, x, y, width, height. -/
  | copyForward (low : Byte) (params : List Word)
  /-- SCENE_RESET (R170). -/
  | sceneReset (low : Byte) (params : List Word)
  /-- CMD_WORD (R157): a word written to CMD. -/
  | cmdWord (w : Word)
  /-- RESP_READ (R165): a read of RESP. -/
  | respRead
  /-- COMPL_READ (R166): a read of COMPL. -/
  | complRead
  /-- ACK (R103): a value written to ACK. -/
  | ack (value : Word)
  /-- EVENT_WRITE (R175): a word written to EVENT. -/
  | eventWrite (w : Word)
  /-- EVENT_ENABLE_WRITE (R177): a word written to EVENT_ENABLE. -/
  | eventEnableWrite (w : Word)
  /-- IGNORED_WRITE (R156): a word written to a location whose writes are ignored. -/
  | ignoredWrite (location : ReadOnlyLocation) (w : Word)
  /-- DEVICE_RESET (R171): RESET_N falls. -/
  | deviceReset
  /-- DEVICE_RESET_RELEASE (R138): RESET_N rises. -/
  | deviceResetRelease
  /-- PORT_RESET (R135): SnPRST_N falls. -/
  | portReset (n : PortNum)
  /-- PORT_RESET_RELEASE (R135): SnPRST_N rises. -/
  | portResetRelease (n : PortNum)
  /-- MARKED_WORD (R116): an edge of SnCLK with SnVALID and SnMARK high and `w` on SnD. -/
  | markedWord (n : PortNum) (w : Word)
  /-- UNMARKED_WORD (R117): an edge of SnCLK with SnVALID high, SnMARK low and `w` on SnD. -/
  | unmarkedWord (n : PortNum) (w : Word)
  /-- PIXEL_WRITE_COMPLETE (R124): a port's pixel write is granted and completes. -/
  | pixelWriteComplete (n : PortNum)
  /-- IDLE_TIMEOUT (R128): a port's idle interval expires. -/
  | idleTimeout (n : PortNum)
  /-- JOB_READ_COMPLETE (R149): the running job's source read is granted and completes. -/
  | jobReadComplete
  /-- JOB_WRITE_COMPLETE (R149): the running job's write is granted and completes. -/
  | jobWriteComplete
  /-- FRAME_BOUNDARY (R84): the end of the last active period of the last active line. -/
  | frameBoundary
  /-- PIXEL_PERIOD (R79): the scan engine goes on to the next pixel period. -/
  | pixelPeriod
  /-- SCAN_READ_COMPLETE (R72): a scan-engine read is granted and completes. -/
  | scanReadComplete
  /-- UNKNOWN_OPCODE (R162): a command whose opcode is not in Table 9-4. -/
  | unknownOpcode (opcode low : Byte) (params : List Word)
  deriving DecidableEq, Repr

end Sys2Proof
end

