-- ==== Sys2Proof/Decode.lean ====
section
/-! DEFINITION. Reading command words (spec/11 Tables 11-2 and 11-3, spec/09 Table 9-2), and the host's
`decodeTableWord`: no row of the table has bits, so no word spells a row (log 20). -/

namespace Sys2Proof

/-- The rows of spec/opcode_table.json give no bits: no word spells one (log 20). -/
def decodeTableWord (_nbits _w : Nat) : Option Instr := none

/-- Bits 15:8 of a command word: its opcode field (Table 11-2). -/
def opcodeField (w : Word) : Byte := w.extractLsb' 8 8

/-- Bits 3:0 of a command word: its length field (Table 11-2). -/
def lengthField (w : Word) : Nat := (w.extractLsb' 0 4).toNat

/-- The length L used for admission: 0 counts as 1, 9..15 as 8 (Table 9-2). -/
def admissionLength (w : Word) : Nat :=
  if lengthField w = 0 then 1 else if lengthField w ≤ 8 then lengthField w else 8

/-- The opcode of a command (Table 11-3). -/
def commandCode : Command → Byte
  | .openSurface => 0x01
  | .closeSurface => 0x02
  | .querySurface => 0x03
  | .queryPool => 0x08
  | .pixelRead => 0x09
  | .setPosition => 0x10
  | .setLook => 0x11
  | .setBackground => 0x12
  | .commit => 0x13
  | .discard => 0x14
  | .queryStaging => 0x15
  | .place => 0x18
  | .unplace => 0x19
  | .queryOrder => 0x1A
  | .panelSetup => 0x20
  | .panelStart => 0x21
  | .panelStop => 0x22
  | .queryPanel => 0x23
  | .post => 0x28
  | .bind => 0x30
  | .unbind => 0x31
  | .portConfig => 0x32
  | .queryPort => 0x33
  | .fill => 0x38
  | .copyForward => 0x39
  | .sceneReset => 0x3F

/-- The length of a command in words, its command word counted (Table 9-4, Table 11-3). -/
def commandLength : Command → Nat
  | .openSurface => 8
  | .closeSurface => 2
  | .querySurface => 2
  | .queryPool => 1
  | .pixelRead => 5
  | .setPosition => 4
  | .setLook => 3
  | .setBackground => 2
  | .commit => 1
  | .discard => 1
  | .queryStaging => 1
  | .place => 4
  | .unplace => 2
  | .queryOrder => 1
  | .panelSetup => 6
  | .panelStart => 1
  | .panelStop => 1
  | .queryPanel => 1
  | .post => 2
  | .bind => 3
  | .unbind => 2
  | .portConfig => 3
  | .queryPort => 2
  | .fill => 8
  | .copyForward => 6
  | .sceneReset => 1

/-- The command an opcode names, if it is one of Table 11-3. -/
def commandOf (code : Byte) : Option Command :=
  [Command.openSurface, .closeSurface, .querySurface, .queryPool, .pixelRead, .setPosition, .setLook,
    .setBackground, .commit, .discard, .queryStaging, .place, .unplace, .queryOrder, .panelSetup, .panelStart,
    .panelStop, .queryPanel, .post, .bind, .unbind, .portConfig, .queryPort, .fill, .copyForward,
    .sceneReset].find? fun c => commandCode c == code

/-- Word 0 of a command from its opcode and its low byte (Table 11-2). -/
def commandWord (code low : Byte) : Word := code ++ low

end Sys2Proof
end

