-- ==== Sys2Proof/Config.lean ====
section
/-! DEFINITION. What is fixed for the SC16: the sizes of its queues and stores, and the values its manual leaves
open. An open value is an `opaque` constant without a body: nothing is known of it (log 3, log 4). -/

namespace Sys2Proof.Config

/-- Words the command queue holds (spec/09 R157, R158). -/
def commandWords : Nat := 64

/-- Responses the response queue holds (spec/09 R164). -/
def responseCapacity : Nat := 8

/-- Records the completion queue holds (spec/09 R166). -/
def completionCapacity : Nat := 16

/-- Records the job queue holds (spec/08 R140). -/
def jobCapacity : Nat := 4

/-- Handles a layer order holds (spec/04 R62, spec/03 R42). -/
def orderCapacity : Nat := 8

/-- Pixel positions of one slab (spec/02 R25). -/
def slabPixels : Nat := 4096

/-- Bytes of one slab (spec/02 R25). -/
def slabBytes : Nat := 8192

/-- Bytes of the frame store (spec/02 R25). -/
def storeBytes : Nat := 2097152

/-- FREE VALUE (spec/02 R32, R38; log 4): what the byte at an address holds at power-up, unspecified. -/
opaque powerUpByte : Nat → Byte

/-- FREE VALUE (spec/02 R32, R35; log 3): at the withdrawal with this index, whether the grant of the write had been
taken first, so that the write completes all the same. -/
opaque grantTakenFirst : Nat → Bool

end Sys2Proof.Config
end

