-- ==== Sys2Proof/Machine/State.lean ====
section
/-! DEFINITION. The state of the SC16 as plain data, block by block (spec/00 Table 0-1), its value right after reset,
and the reasons a step can stop. -/

namespace Sys2Proof.Machine

/-! ## Surfaces (spec/01, spec/06) -/

/-- A slot of the surface table, 0..15. -/
abbrev Slot := Fin 16

/-- A slab of the frame store, 0..255 (R25). -/
abbrev Slab := Fin 256

/-- The two buffers of a surface; a SINGLE surface has buffer A alone. -/
inductive BufferId where
  | a
  | b
  deriving DecidableEq, Repr

/-- SINGLE or DOUBLE, fixed at OPEN (Table 1-1). -/
inductive Buffering where
  | single
  | double
  deriving DecidableEq, Repr

/-- The eight orientations (spec/00 Table 0-2). -/
inductive Orientation where
  | r0
  | r90
  | r180
  | r270
  | m0
  | m90
  | m180
  | m270
  deriving DecidableEq, Repr

/-- The five lifecycle states of a slot (R1). -/
inductive SlotState where
  | free
  | dormant
  | live
  | closing
  | releasing
  deriving DecidableEq, Repr

/-- The flip states of a surface (R93). -/
inductive FlipState where
  | none
  | posted
  | shown
  | shownHeld
  deriving DecidableEq, Repr

/-- An appearance: position, opacity and tag (Table 1-1). -/
structure Appearance where
  x : Nat
  y : Nat
  opacity : Nat
  tag : Nat
  deriving DecidableEq, Repr

/-- A handle: slot and generation (spec/00 0.4). -/
structure Handle where
  slot : Slot
  generation : Byte
  deriving DecidableEq, Repr

/-- A surface record (Table 1-1). W, H and n follow from SW, SH and the orientation (R2); the bound port and the jobs
outstanding are read from the ports and the job queue (R3); log 12. -/
structure Surface where
  state : SlotState
  generation : Byte
  buffering : Buffering
  orientation : Orientation
  sourceWidth : Nat
  sourceHeight : Nat
  bufferA : List Slab
  bufferB : Option (List Slab)
  front : BufferId
  committed : Appearance
  pendingLook : Appearance
  flip : FlipState
  noticeTag : Nat
  flipCount : BitVec 16
  deriving DecidableEq, Repr

/-- The record of a FREE slot: only the generation means anything (R1); the other fields stand at fixed values that
no command can observe (DESIGN CHOICE, log 9). -/
def Surface.freed (generation : Byte) : Surface where
  state := .free
  generation := generation
  buffering := .single
  orientation := .r0
  sourceWidth := 0
  sourceHeight := 0
  bufferA := []
  bufferB := Option.none
  front := .a
  committed := ⟨0, 0, 0, 0⟩
  pendingLook := ⟨0, 0, 0, 0⟩
  flip := .none
  noticeTag := 0
  flipCount := 0

/-! ## Frame store (spec/02) -/

/-- A pixel position of the frame store: a slab and a place in it (R25). -/
structure PixelPos where
  slab : Slab
  place : Fin 4096
  deriving DecidableEq, Repr

/-- The frame store: byte addresses that have been written, strictly rising, each with its byte. An address not
listed has not been written since power-up (log 4). -/
abbrev Memory := List Host.Cell

/-- The six rotating clients of the arbiter, in their cyclic order (R34). -/
inductive RotatingClient where
  | port (n : PortNum)
  | blockEngine
  | pixelRead
  deriving DecidableEq, Repr

/-- The clients of the frame store (Table 2-2). -/
inductive Client where
  | scan
  | rotating (c : RotatingClient)
  deriving DecidableEq, Repr

/-- A write request: one position and the pixel to be written (R33). -/
structure WriteRequest where
  pos : PixelPos
  pixel : Pixel
  deriving DecidableEq, Repr

/-- The PIXEL_READ in execution: the position it reads and the buffer it resolved (R37, R38). -/
structure PixelReadOp where
  pos : PixelPos
  buffer : BufferId
  deriving DecidableEq, Repr

/-! ## Staging set and layer order (spec/03, spec/04) -/

/-- The state of the staging set, OPEN or ARMED (Table 3-1). -/
inductive StagingState where
  | opened
  | armed
  deriving DecidableEq, Repr

/-- The staging set (Table 3-1). The pending appearances stand in the surface records, and the staged closes are the
slots in CLOSING. -/
structure StagingSet where
  state : StagingState
  dirty : Bool
  order : List Handle
  background : Pixel
  batch : BitVec 16
  deriving DecidableEq, Repr

/-- The layer order block (Table 4-1). -/
structure LayerOrder where
  order : List Handle
  background : Pixel
  deriving DecidableEq, Repr

/-! ## Scan engine (spec/05) -/

/-- The scan states (R77). -/
inductive ScanState where
  | stopped
  | running
  | draining
  deriving DecidableEq, Repr

/-- A sync polarity (Table 5-1). -/
inductive Polarity where
  | activeLow
  | activeHigh
  deriving DecidableEq, Repr

/-- The panel setup (Table 5-1); an active width of 0 marks it invalid (R77). -/
structure PanelSetup where
  activeWidth : Nat
  activeHeight : Nat
  hBlank : Nat
  vBlank : Nat
  divider : Nat
  hPolarity : Polarity
  vPolarity : Polarity
  deriving DecidableEq, Repr

/-- The scan position: the line and the pixel period that the output is driving (R77). -/
inductive ScanPos where
  | leadIn (line period : Nat)
  | frame (line period : Nat)
  deriving DecidableEq, Repr

/-- A scan-engine read of the pixel being composed: where, and at which opacity it is blended (R71, R72). -/
structure ScanRead where
  pos : PixelPos
  opacity : Nat
  deriving DecidableEq, Repr

/-- The scan engine (Table 5-1), with the pixel driven in this period and the composition of a panel pixel: its running
value and the reads it still needs, the first of them raised at the arbiter (R69, R72). The pixel being composed is that
of the next period, or, while `opening` holds, panel pixel (0, 0) in its own period (R73, R82, log 7). -/
structure ScanEngine where
  state : ScanState
  setup : PanelSetup
  frameNumber : BitVec 32
  position : Option ScanPos
  driven : Pixel
  composing : Pixel
  reads : List ScanRead
  opening : Bool
  deriving DecidableEq, Repr

/-! ## Stream ports (spec/07) -/

/-- The port states (Table 7-1). -/
inductive PortState where
  | idle
  | header
  | stalled
  | pixels
  | discarding
  deriving DecidableEq, Repr

/-- The causes of a port error (Table 7-7). -/
inductive PortError where
  | none
  | notBound
  | badHeader
  | badRect
  | shortBurst
  | overrun
  | timeout
  | abandoned
  | portReset
  deriving DecidableEq, Repr

/-- The burst record (Table 7-1, R120). -/
structure Burst where
  u0 : Nat
  v0 : Nat
  width : Nat
  height : Nat
  postOnEnd : Bool
  target : Handle
  buffer : Option BufferId
  remaining : Nat
  deriving DecidableEq, Repr

/-- A running idle interval: when it began on the time base, and the setting it runs under (R127). -/
structure IdleInterval where
  start : Nat
  setting : Word
  deriving DecidableEq, Repr

/-- One stream port (Table 7-1). Write pending is the presence of `writeRequest`. -/
structure Port where
  state : PortState
  held : Bool
  binding : Option Handle
  header : List Word
  burst : Option Burst
  writeRequest : Option WriteRequest
  timeoutSetting : Word
  interval : Option IdleInterval
  lastError : PortError
  errorCount : Nat
  burstsCompleted : BitVec 16
  deriving DecidableEq, Repr

/-! ## Block engine (spec/08) -/

/-- What a job does (Table 8-1): a FILL has a colour, a COPY_FORWARD a source buffer. -/
inductive JobKind where
  | fill (colour : Pixel)
  | copyForward (source : BufferId)
  deriving DecidableEq, Repr

/-- The job states (Table 8-2). -/
inductive JobState where
  | queued
  | running
  | finished
  | aborted
  deriving DecidableEq, Repr

/-- A rectangle in buffer coordinates (Table 8-1). -/
structure Rect where
  x : Nat
  y : Nat
  width : Nat
  height : Nat
  deriving DecidableEq, Repr

/-- A job record (Table 8-1). -/
structure Job where
  id : Byte
  kind : JobKind
  handle : Handle
  target : BufferId
  rect : Rect
  progress : Nat
  state : JobState
  deriving DecidableEq, Repr

/-- The frame-store request of the running job (R149). -/
inductive EngineRequest where
  | read (pos : PixelPos)
  | write (request : WriteRequest)
  deriving DecidableEq, Repr

/-- The block engine: job queue, job id counter and frame-store request (R140, R141, R149). -/
structure BlockEngine where
  jobs : List Job
  nextId : Byte
  request : Option EngineRequest
  deriving DecidableEq, Repr

/-! ## Control port and command processor (spec/09) -/

/-- The command assembly record (R157): L words in all, k of them stored or discarded. -/
inductive Assembly where
  | idle
  | collecting (total done : Nat)
  | dropping (total done : Nat)
  deriving DecidableEq, Repr

/-- An admitted command: its sequence number, word 0 and the parameter words stored so far (R157, R159). -/
structure QueuedCommand where
  seq : Byte
  word0 : Word
  params : List Word
  deriving DecidableEq, Repr

/-- The status codes of a response (spec/00 Table 0-4). -/
inductive Status where
  | ok
  | badCommand
  | badLength
  | badHandle
  | badParam
  | badState
  | noSpace
  | listFull
  | busy
  deriving DecidableEq, Repr

/-- A response (R163). -/
structure Response where
  seq : Byte
  status : Status
  opcode : Byte
  results : List Word
  deriving DecidableEq, Repr

/-- How a job ended (R150, R152). -/
inductive JobOutcome where
  | done
  | aborted
  deriving DecidableEq, Repr

/-- The completion records (spec/11 Table 11-11). -/
inductive CompletionRecord where
  | flip (handle : Handle) (noticeTag : Nat) (flipCount : BitVec 16) (frameLow : BitVec 16) (idle : Bool)
  | applied (batch : BitVec 16) (frameNumber : BitVec 32) (idle : Bool)
  | jobEnd (handle : Handle) (jobId : Byte) (outcome : JobOutcome)
  | released (handle : Handle) (slabs : Nat)
  deriving DecidableEq, Repr

/-- The control port (spec/09): assembly record, command queue, sequence counter, response queue and completion
queue, each queue with the number of words of its oldest entry already read. -/
structure ControlPort where
  assembly : Assembly
  commands : List QueuedCommand
  nextSeq : Byte
  responses : List Response
  responseRead : Nat
  completions : List CompletionRecord
  completionRead : Nat
  deriving DecidableEq, Repr

/-- The event unit: the latched set and the enable set, at the bits of spec/11 Table 11-14. -/
structure EventUnit where
  latched : Word
  enabled : Word
  deriving DecidableEq, Repr

/-- The latched members of the event set (spec/10 Table 10-1). -/
inductive Event where
  | frame
  | complWait
  | cmdOverflow
  | strayAck
  | portError (n : PortNum)
  | panelStopped
  deriving DecidableEq, Repr

/-- Pins: the level of RESET_N, and what D[15:0] carried in the last control-port access: a word in a read,
nothing in a write (spec/13 R184; log 19). The level of SnPRST_N stands with its port. -/
structure Pins where
  resetN : Bool
  dataOut : Option Word
  deriving DecidableEq, Repr

/-! ## The whole -/

/-- The SC16: the blocks of spec/00 Table 0-1, its pins, the microsecond time base (log 6) and the index of the next
free value (the model's own, log 21). -/
structure Device where
  pins : Pins
  control : ControlPort
  pixelRead : Option PixelReadOp
  surfaces : Vector Surface 16
  freeSlabs : List Slab
  store : Memory
  rotation : RotatingClient
  staging : StagingSet
  layers : LayerOrder
  scan : ScanEngine
  ports : Vector Port 4
  engine : BlockEngine
  events : EventUnit
  timeBase : Nat
  freeIndex : Nat
  deriving DecidableEq, Repr

/-- The state: the device, and the commands that wait, first in, first out. -/
structure State where
  dev : Device
  pending : List Instr
  deriving DecidableEq, Repr

/-- The eight control-port locations (spec/09 Table 9-1). -/
inductive Location where
  | cmd
  | resp
  | compl
  | ack
  | event
  | eventEnable
  | queueStatus
  | deviceStatus
  deriving DecidableEq, Repr

/-- What a command answers: a status, and result words when it is OK (R163). -/
structure Reply where
  status : Status
  results : List Word
  deriving DecidableEq, Repr

/-- The buffer selector of PIXEL_READ and FILL (spec/11 Table 11-5). -/
inductive Selector where
  | front
  | back
  deriving DecidableEq, Repr

/-- The where word of PLACE (spec/11 Table 11-5). -/
inductive Placement where
  | top
  | bottom
  | above
  | below
  deriving DecidableEq, Repr

/-- The mode word of OPEN (spec/11 Table 11-5). -/
structure OpenMode where
  buffering : Buffering
  orientation : Orientation
  fill : Bool
  deriving DecidableEq, Repr

/-- A look word: opacity and tag (spec/11 Table 11-5). -/
structure Look where
  opacity : Nat
  tag : Nat
  deriving DecidableEq, Repr

/-- The timing word of PANEL_SETUP (spec/11 Table 11-5). -/
structure Timing where
  divider : Nat
  hPolarity : Polarity
  vPolarity : Polarity
  deriving DecidableEq, Repr

/-- The waiting class of a command (R161); a job-class command needs so many places in the job queue. -/
inductive WaitClass where
  | unclassed
  | staging
  | job (places : Nat)
  deriving DecidableEq, Repr

/-- The head-waiting causes of DEVICE_STATUS (R169). -/
inductive WaitCause where
  | none
  | incomplete
  | responseRoom
  | stagingArmed
  | jobRoom
  | frameStoreRead
  deriving DecidableEq, Repr

/-- The levels of the panel output (R80): the pixel clock runs or is held low, data enable, data and the two
syncs. -/
structure PanelLevels where
  clockRuns : Bool
  dataEnable : Bool
  data : Pixel
  hSync : Bool
  vSync : Bool
  deriving DecidableEq, Repr

/-- The reasons a step faults. -/
inductive Fault where
  /-- A frame-store byte at or above 2,097,152 (R25: the store ends there). Raised by no meaning: a position of the
  frame store is a slab and a place in it, so no command can name such a byte. Safe. -/
  | outsideFrameStore (address : Nat)
  deriving DecidableEq, Repr

/-- The reasons a step is refused. -/
inductive Refusal where
  /-- A row of the table that has no meaning yet; raised by an arm of `exec` alone. Safe. No arm is such an arm. -/
  | notModelled (mnemonic : String)
  deriving DecidableEq, Repr

/-! ## Reset -/

/-- A panel setup after device reset: invalid (Table 5-1). -/
def PanelSetup.reset : PanelSetup := ⟨0, 0, 0, 0, 0, .activeLow, .activeLow⟩

/-- The scan engine after device reset (R91). -/
def ScanEngine.reset : ScanEngine where
  state := .stopped
  setup := PanelSetup.reset
  frameNumber := 0
  position := none
  driven := 0
  composing := 0
  reads := []
  opening := false

/-- A port after device reset (R138); the level of SnPRST_N is an input. -/
def Port.reset (held : Bool) : Port where
  state := .idle
  held := held
  binding := none
  header := []
  burst := none
  writeRequest := none
  timeoutSetting := 0
  interval := none
  lastError := .none
  errorCount := 0
  burstsCompleted := 0

/-- The staging set after device reset (R60). -/
def StagingSet.reset : StagingSet := ⟨.opened, false, [], 0, 0⟩

/-- The layer order after device reset (R75). -/
def LayerOrder.reset : LayerOrder := ⟨[], 0⟩

/-- The block engine after device reset (R154). -/
def BlockEngine.reset : BlockEngine := ⟨[], 0, none⟩

/-- The control port after device reset (R171). -/
def ControlPort.reset : ControlPort := ⟨.idle, [], 0, [], 0, [], 0⟩

/-- The event unit after device reset (R179). -/
def EventUnit.reset : EventUnit := ⟨0, 0⟩

/-- The free slab set with every slab in it (R28). -/
def allSlabs : List Slab := List.finRange 256

/-- The device right after reset: RESET_N high again, every port not held (DESIGN CHOICE, log 10), a frame store in
which nothing has been written (R32, log 4). -/
def Device.reset : Device where
  pins := ⟨true, none⟩
  control := ControlPort.reset
  pixelRead := none
  surfaces := Vector.replicate 16 (Surface.freed 0)
  freeSlabs := allSlabs
  store := []
  rotation := .pixelRead
  staging := StagingSet.reset
  layers := LayerOrder.reset
  scan := ScanEngine.reset
  ports := Vector.replicate 4 (Port.reset false)
  engine := BlockEngine.reset
  events := EventUnit.reset
  timeBase := 0
  freeIndex := 0

/-- The machine right after reset; nothing waits. -/
def State.reset : State := ⟨Device.reset, []⟩

/-- The state with another device and the same waiting commands. -/
def State.withDevice (s : State) (d : Device) : State := ⟨d, s.pending⟩

end Sys2Proof.Machine
end

