-- ==== Sys2Proof/Machine/Ops.lean ====
section
/-! DEFINITION. The named operations over the frame store, the surface table, the ports and the queues. -/

namespace Sys2Proof.Machine

/-! ## The frame store as bytes (R25, R32) -/

/-- The byte written at an address, if one has been written since power-up. -/
def Memory.lookupByte : Memory → Nat → Option Byte
  | [], _ => none
  | c :: m, a => if c.1 = a then some c.2 else Memory.lookupByte m a

/-- What the byte at an address reads as: the byte last written, else its power-up contents, which are a free value
(R32, log 4). This is what an unlisted address reads as. -/
def Memory.readByte (m : Memory) (a : Nat) : Byte :=
  (Memory.lookupByte m a).getD (Config.powerUpByte a)

/-- Write one byte, keeping the addresses strictly rising. -/
def Memory.writeByte : Memory → Nat → Byte → Memory
  | [], a, b => [(a, b)]
  | c :: m, a, b =>
    if a < c.1 then (a, b) :: c :: m
    else if c.1 = a then (a, b) :: m
    else c :: Memory.writeByte m a b

/-- The canonical form: addresses strictly rising, each of them a byte of the store. An unlisted address reads as no
fixed value (log 4), so no entry can equal it. -/
abbrev Memory.wf (m : Memory) : Prop :=
  m.Pairwise (fun c e => c.1 < e.1) ∧ ∀ c ∈ m, c.1 < Config.storeBytes

/-- The first of the two byte addresses of a pixel position (R25). -/
def PixelPos.address (p : PixelPos) : Nat := p.slab.val * Config.slabBytes + 2 * p.place.val

/-- Read one whole pixel (R25, R36); the low byte first (DESIGN CHOICE, cannot be observed, log 5). -/
def Memory.readPixel (m : Memory) (p : PixelPos) : Pixel :=
  Memory.readByte m (p.address + 1) ++ Memory.readByte m p.address

/-- Write one whole pixel (R25, R33). -/
def Memory.writePixel (m : Memory) (p : PixelPos) (w : Pixel) : Memory :=
  Memory.writeByte (Memory.writeByte m p.address (w.extractLsb' 0 8)) (p.address + 1) (w.extractLsb' 8 8)

/-! ## Surfaces -/

/-- The orientations under which width and height change places (R2). -/
def Orientation.swaps : Orientation → Bool
  | .r90 => true
  | .r270 => true
  | .m90 => true
  | .m270 => true
  | .r0 => false
  | .r180 => false
  | .m0 => false
  | .m180 => false

/-- The slabs of one buffer of W × H pixels: the quotient by 4096, rounded up (R2). -/
def slabsFor (w h : Nat) : Nat := (w * h + (Config.slabPixels - 1)) / Config.slabPixels

/-- The buffer width W (R2). -/
def Surface.width (s : Surface) : Nat := if s.orientation.swaps then s.sourceHeight else s.sourceWidth

/-- The buffer height H (R2). -/
def Surface.height (s : Surface) : Nat := if s.orientation.swaps then s.sourceWidth else s.sourceHeight

/-- The other buffer. -/
def BufferId.other : BufferId → BufferId
  | .a => .b
  | .b => .a

/-- The slab list of a buffer (Table 1-1). -/
def Surface.slabList (s : Surface) : BufferId → List Slab
  | .a => s.bufferA
  | .b => s.bufferB.getD []

/-- All slabs a surface holds, buffer A's first (R2, R30). -/
def Surface.heldSlabs (s : Surface) : List Slab := s.bufferA ++ s.bufferB.getD []

/-- The buffer that ports and jobs write: buffer A of a SINGLE surface, the back buffer of a DOUBLE one (R94). -/
def Surface.writeBuffer (s : Surface) : BufferId :=
  match s.buffering with
  | .single => .a
  | .double => s.front.other

/-- Whether a slot holds an open surface whose handle is valid (Table 1-3). -/
def SlotState.named : SlotState → Bool
  | .dormant => true
  | .live => true
  | .closing => true
  | .free => false
  | .releasing => false

/-- Whether a slot is DORMANT or LIVE (Table 1-3). -/
def SlotState.editable : SlotState → Bool
  | .dormant => true
  | .live => true
  | .closing => false
  | .free => false
  | .releasing => false

/-- Whether a flip state has a notice outstanding (R93). -/
def FlipState.noticed : FlipState → Bool
  | .shown => true
  | .shownHeld => true
  | .none => false
  | .posted => false

/-- Whether a flip state leaves the back buffer writable: NONE or SHOWN (R94). -/
def FlipState.leavesWritable : FlipState → Bool
  | .none => true
  | .shown => true
  | .posted => false
  | .shownHeld => false

/-- The frame-store position of a linear index of a slab list (R26). An index past the list, which no run reaches
(R26), reads slab 0 (log 16). -/
def positionAt (slabs : List Slab) (i : Nat) : PixelPos :=
  ⟨slabs.getD (i / Config.slabPixels) 0, ⟨i % 4096, Nat.mod_lt _ (by decide)⟩⟩

/-- The position of buffer pixel (x, y) of a buffer of a surface (R26). -/
def Surface.pixelAt (s : Surface) (buffer : BufferId) (x y : Nat) : PixelPos :=
  positionAt (s.slabList buffer) (y * s.width + x)

/-- Generation advance: 255 is followed by 1 (R5). -/
def nextGeneration (g : Byte) : Byte := if g = 255 then 1 else g + 1

/-! ## Records of the device -/

/-- The slots in order. -/
def allSlots : List Slot := List.finRange 16

/-- The ports in order. -/
def allPorts : List PortNum := List.finRange 4

/-- The surface record of a slot. -/
def Device.surface (d : Device) (i : Slot) : Surface := d.surfaces[i]

/-- Replace the surface record of a slot. -/
def Device.setSurface (d : Device) (i : Slot) (r : Surface) : Device :=
  { d with surfaces := d.surfaces.set i r }

/-- Change every surface record, each from its slot and its old value. -/
def Device.mapSurfaces (d : Device) (f : Slot → Surface → Surface) : Device :=
  { d with surfaces := Vector.ofFn fun i => f i d.surfaces[i] }

/-- A port. -/
def Device.port (d : Device) (n : PortNum) : Port := d.ports[n]

/-- Replace a port. -/
def Device.setPort (d : Device) (n : PortNum) (p : Port) : Device :=
  { d with ports := d.ports.set n p }

/-- The handle of the surface in a slot. -/
def Device.handleAt (d : Device) (i : Slot) : Handle := ⟨i, (d.surface i).generation⟩

/-- The bound-port field of the surface a handle names: the port whose binding is that handle (R3, log 12). -/
def Device.boundPort (d : Device) (h : Handle) : Option PortNum :=
  allPorts.find? fun n => (d.port n).binding == some h

/-- The jobs-outstanding count of the surface a handle names: its records in the job queue, in any state (R3). -/
def Device.jobsOutstanding (d : Device) (h : Handle) : Nat :=
  d.engine.jobs.countP fun j => j.handle == h

/-! ## The queues of the control port -/

/-- Words a command holds in the command queue: its length L (R158). -/
def QueuedCommand.held (c : QueuedCommand) : Nat := admissionLength c.word0

/-- Whether all L words of a command have been stored (R160). -/
def QueuedCommand.complete (c : QueuedCommand) : Bool := c.held ≤ c.params.length + 1

/-- Words held in the command queue, reserved words included (R158). -/
def Device.heldWords (d : Device) : Nat := (d.control.commands.map QueuedCommand.held).sum

/-- Free words of the command queue (R158). -/
def Device.freeWords (d : Device) : Nat := Config.commandWords - d.heldWords

/-- Whether the response queue has room (R160). -/
def Device.responseRoom (d : Device) : Bool := d.control.responses.length < Config.responseCapacity

/-- Whether the completion queue has room for one record (R166). -/
def Device.completionRoom (d : Device) : Bool := d.control.completions.length < Config.completionCapacity

/-- Place a record behind every record of the completion queue (R166). -/
def Device.placeRecord (d : Device) (r : CompletionRecord) : Device :=
  { d with control := { d.control with completions := d.control.completions ++ [r] } }

/-- The head's response enters the response queue, and in the same step the head's words leave the command queue
(R163). -/
def Device.respond (d : Device) (r : Reply) : Device :=
  match d.control.commands with
  | [] => d
  | c :: rest =>
    { d with
      control := { d.control with
        commands := rest
        responses := d.control.responses ++ [⟨c.seq, r.status, opcodeField c.word0, r.results⟩] } }

/-- An OK answer with its result words. -/
def okReply (results : List Word) : Reply := ⟨.ok, results⟩

/-- A refusal: no result words (R163). -/
def refusal (status : Status) : Reply := ⟨status, []⟩

/-- D[15:0] in the control-port access being taken (spec/13 R184). -/
def Device.setData (d : Device) (w : Option Word) : Device := { d with pins := { d.pins with dataOut := w } }

/-! ## The free slab set (spec/02) -/

/-- Put one slab into the free slab set, kept ascending and without repeats (R28). -/
def insertSlab (s : Slab) : List Slab → List Slab
  | [] => [s]
  | t :: rest => if s < t then s :: t :: rest else if s = t then t :: rest else t :: insertSlab s rest

/-- Return slabs to the free slab set (R30). -/
def returnSlabs (freed : List Slab) (pool : List Slab) : List Slab := freed.foldr insertSlab pool

end Sys2Proof.Machine
end

