-- ==== Sys2Proof/Machine/Operands.lean ====
section
/-! DEFINITION. Words in and out: the structured parameter words (spec/11 Table 11-5), the codes and layouts of result
words, responses and completion records (Tables 11-6 to 11-11), and the checks of handles (R4, R6). -/

namespace Sys2Proof.Machine

/-- A number at bit position `lo` of a word. -/
def bitsAt (v lo : Nat) : Word := BitVec.ofNat 16 v <<< lo

/-- A flag at bit position `lo` of a word. -/
def flagAt (b : Bool) (lo : Nat) : Word := bitsAt b.toNat lo

/-- A quantity as a whole word. -/
def wordOf (v : Nat) : Word := BitVec.ofNat 16 v

/-- The field of a word of `len` bits from bit `lo`, as a number. -/
def fieldOf (w : Word) (lo len : Nat) : Nat := (w.extractLsb' lo len).toNat

/-! ## Parameter words (Table 11-5, R181) -/

/-- A handle word: slot in 11:8, generation in 7:0, bits 15:12 not examined. -/
def handleOf (w : Word) : Handle := ⟨(w.extractLsb' 8 4).toFin, w.extractLsb' 0 8⟩

/-- The orientation of a code (Table 11-5). -/
def orientationOf (code : Nat) : Orientation :=
  match code with
  | 0 => .r0
  | 1 => .r90
  | 2 => .r180
  | 3 => .r270
  | 4 => .m0
  | 5 => .m90
  | 6 => .m180
  | _ => .m270

/-- The mode word of OPEN: buffering in 1:0, orientation in 6:4, fill flag in 8, every other position 0. -/
def decodeMode (w : Word) : Option OpenMode :=
  if w &&& 0xFE8E = 0 then
    some ⟨if w.getLsbD 0 then .double else .single, orientationOf (fieldOf w 4 3), w.getLsbD 8⟩
  else none

/-- A look word: opacity 0..16 in 4:0, tag in 13:8, every other position 0. -/
def decodeLook (w : Word) : Option Look :=
  if w &&& 0xC0E0 = 0 ∧ fieldOf w 0 5 ≤ 16 then some ⟨fieldOf w 0 5, fieldOf w 8 6⟩ else none

/-- The polarity of a code (Table 11-5). -/
def polarityOf (active : Bool) : Polarity := if active then .activeHigh else .activeLow

/-- The timing word: divider 1..16 in 4:0, polarities in 8 and 9, every other position 0. -/
def decodeTiming (w : Word) : Option Timing :=
  if w &&& 0xFCE0 = 0 ∧ 1 ≤ fieldOf w 0 5 ∧ fieldOf w 0 5 ≤ 16 then
    some ⟨fieldOf w 0 5, polarityOf (w.getLsbD 8), polarityOf (w.getLsbD 9)⟩
  else none

/-- A buffer selector: 0 FRONT, 1 BACK. -/
def decodeSelector (w : Word) : Option Selector :=
  if w = 0 then some .front else if w = 1 then some .back else none

/-- A where word: 0 TOP, 1 BOTTOM, 2 ABOVE, 3 BELOW. -/
def decodePlacement (w : Word) : Option Placement :=
  if w = 0 then some .top
  else if w = 1 then some .bottom
  else if w = 2 then some .above
  else if w = 3 then some .below
  else none

/-- A port number 0..3, the whole word. -/
def decodePort (w : Word) : Option PortNum :=
  if h : w.toNat < 4 then some ⟨w.toNat, h⟩ else none

/-! ## Handle checks -/

/-- The check of R4: the slot is DORMANT, LIVE or CLOSING and the generation is its current one. -/
def Device.validHandle (d : Device) (h : Handle) : Bool :=
  (d.surface h.slot).state.named && (d.surface h.slot).generation == h.generation

/-- R4 and then R6, for a command that is refused for a CLOSING surface: the status of the refusal, if any. -/
def Device.handleRefusal (d : Device) (h : Handle) : Option Status :=
  if d.validHandle h then
    if (d.surface h.slot).state = .closing then some .badState else none
  else some .badHandle

/-! ## Codes of result words -/

/-- A handle as a result word: 0 in bits 15:12. -/
def handleWord (h : Handle) : Word := bitsAt h.slot.val 8 ||| bitsAt h.generation.toNat 0

/-- The code of an orientation (Table 11-5). -/
def orientationCode : Orientation → Nat
  | .r0 => 0
  | .r90 => 1
  | .r180 => 2
  | .r270 => 3
  | .m0 => 4
  | .m90 => 5
  | .m180 => 6
  | .m270 => 7

/-- The code of a lifecycle state in QUERY_SURFACE (Table 11-9); the other two states are not reported. -/
def slotStateCode : SlotState → Nat
  | .dormant => 1
  | .live => 2
  | .closing => 3
  | .free => 0
  | .releasing => 0

/-- The code of a flip state (Table 11-9). -/
def flipCode : FlipState → Nat
  | .none => 0
  | .posted => 1
  | .shown => 2
  | .shownHeld => 3

/-- The code of a buffer (Tables 11-8 to 11-10). -/
def bufferCode : BufferId → Nat
  | .a => 0
  | .b => 1

/-- The code of a scan state (Tables 11-10 and 11-15). -/
def scanStateCode : ScanState → Nat
  | .stopped => 0
  | .running => 1
  | .draining => 2

/-- The code of a polarity (Table 11-5). -/
def polarityCode : Polarity → Nat
  | .activeLow => 0
  | .activeHigh => 1

/-- The code of a port state (Table 11-10). -/
def portStateCode : PortState → Nat
  | .idle => 0
  | .header => 1
  | .stalled => 2
  | .pixels => 3
  | .discarding => 4

/-- The code of a port error (Table 11-10). -/
def portErrorCode : PortError → Nat
  | .none => 0
  | .notBound => 1
  | .badHeader => 2
  | .badRect => 3
  | .shortBurst => 4
  | .overrun => 5
  | .timeout => 6
  | .abandoned => 7
  | .portReset => 8

/-- The code of a status (Table 11-7). -/
def statusCode : Status → Nat
  | .ok => 0
  | .badCommand => 1
  | .badLength => 2
  | .badHandle => 3
  | .badParam => 4
  | .badState => 5
  | .noSpace => 6
  | .listFull => 7
  | .busy => 8

/-- The code of a job outcome (Table 11-11). -/
def outcomeCode : JobOutcome → Nat
  | .done => 0
  | .aborted => 1

/-- The words of a response (Table 11-6). -/
def responseWords (r : Response) : List Word :=
  (bitsAt 1 15 ||| bitsAt r.results.length 12 ||| bitsAt (statusCode r.status) 8 ||| bitsAt r.seq.toNat 0)
    :: bitsAt r.opcode.toNat 8 :: r.results

/-- The four words of a completion record (Table 11-11). -/
def recordWords : CompletionRecord → List Word
  | .flip h tag count frameLow idle =>
    [bitsAt 1 12 ||| handleWord h, flagAt idle 15 ||| bitsAt tag 0, count, frameLow]
  | .applied batch frame idle =>
    [bitsAt 2 12 ||| flagAt idle 0, batch, frame.extractLsb' 0 16, frame.extractLsb' 16 16]
  | .jobEnd h id outcome =>
    [bitsAt 3 12 ||| handleWord h, bitsAt (outcomeCode outcome) 15 ||| bitsAt id.toNat 0, 0, 0]
  | .released h slabs => [bitsAt 4 12 ||| handleWord h, wordOf slabs, 0, 0]

end Sys2Proof.Machine
end

