-- ==== Sys2Proof/Machine/Flags.lean ====
section
/-! DEFINITION. The event unit (spec/10): the latched set, the level members, IRQ_N, and SnREADY of a port. -/

namespace Sys2Proof.Machine

/-- The bit of a latched member (spec/11 Table 11-14). -/
def eventBit : Event → Nat
  | .frame => 2
  | .complWait => 3
  | .cmdOverflow => 4
  | .strayAck => 5
  | .portError n => 6 + n.val
  | .panelStopped => 10

/-- The positions of the nine latched members (Table 11-14). -/
def latchedMask : Word := 0x07FC

/-- The positions of the eleven members (Table 11-14). -/
def memberMask : Word := 0x07FF

/-- The cause of a latched member occurs: its flag is set (R174). -/
def Device.latch (d : Device) (e : Event) : Device :=
  { d with events := { d.events with latched := d.events.latched ||| bitsAt 1 (eventBit e) } }

/-- Whether the flag of a latched member is set. -/
def Device.latchedFlag (d : Device) (e : Event) : Bool := d.events.latched.getLsbD (eventBit e)

/-- RESP_PENDING follows the response queue (R173). -/
def Device.respPending (d : Device) : Bool := !d.control.responses.isEmpty

/-- COMPL_PENDING follows the completion queue (R173). -/
def Device.complPending (d : Device) : Bool := !d.control.completions.isEmpty

/-- The event set as one word (R172, Table 11-14). -/
def Device.eventWord (d : Device) : Word :=
  (d.events.latched &&& latchedMask) ||| flagAt d.respPending 0 ||| flagAt d.complPending 1

/-- IRQ_N: low while a member is both set and enabled (R178); `true` is high. High while RESET_N is low (R179). -/
def Device.irqN (d : Device) : Bool :=
  !d.pins.resetN || (d.eventWord &&& d.events.enabled &&& memberMask) == 0

/-- A write to EVENT clears each latched flag written as 1 (R175). -/
def Device.clearEvents (d : Device) (w : Word) : Device :=
  { d with events := { d.events with latched := d.events.latched &&& ~~~w } }

/-- A write to EVENT_ENABLE replaces the enable set; positions without a member are ignored (R177). -/
def Device.setEnables (d : Device) (w : Word) : Device :=
  { d with events := { d.events with enabled := w &&& memberMask } }

/-- SnREADY of a port (Table 7-2); `true` is high. -/
def Device.ready (d : Device) (n : PortNum) : Bool :=
  d.pins.resetN && !(d.port n).held &&
    match (d.port n).state with
    | .idle => true
    | .header => true
    | .stalled => false
    | .pixels => (d.port n).writeRequest.isNone
    | .discarding => true

end Sys2Proof.Machine
end

