-- ==== Sys2Proof/Machine/Arbiter.lean ====
section
/-! DEFINITION. The frame-store arbiter (spec/02 R33 to R36): which request is granted next, and the grant that may have
been taken before a step that withdraws requests. A granted access completes as one event (R33), which is a row of its
own for each client (log 3). -/

namespace Sys2Proof.Machine

/-- Whether a rotating client has a request waiting (R33). -/
def Device.requesting (d : Device) : RotatingClient → Bool
  | .port n => (d.port n).writeRequest.isSome
  | .blockEngine => d.engine.request.isSome
  | .pixelRead => d.pixelRead.isSome

/-- The rotating clients in the order in which they are considered after the one granted most recently: the cyclic
order S0, S1, S2, S3, block engine, PIXEL_READ (R34). -/
def rotationAfter : RotatingClient → List RotatingClient
  | .port 0 => [.port 1, .port 2, .port 3, .blockEngine, .pixelRead, .port 0]
  | .port 1 => [.port 2, .port 3, .blockEngine, .pixelRead, .port 0, .port 1]
  | .port 2 => [.port 3, .blockEngine, .pixelRead, .port 0, .port 1, .port 2]
  | .port 3 => [.blockEngine, .pixelRead, .port 0, .port 1, .port 2, .port 3]
  | .blockEngine => [.pixelRead, .port 0, .port 1, .port 2, .port 3, .blockEngine]
  | .pixelRead => [.port 0, .port 1, .port 2, .port 3, .blockEngine, .pixelRead]

/-- The client the arbiter grants: the scan engine first, else the first rotating client with a request after the
pointer (R34). -/
def Device.nextGrant (d : Device) : Option Client :=
  if d.scan.reads.isEmpty then
    ((rotationAfter d.rotation).find? d.requesting).map .rotating
  else some .scan

/-- Whether the next access granted is that of a client. -/
def Device.grants (d : Device) (c : Client) : Bool := d.nextGrant == some c

/-- The pointer names the rotating client just granted (R34). -/
def Device.grantTo (d : Device) (c : RotatingClient) : Device := { d with rotation := c }

/-- A granted write (R32, R33). -/
def Device.storePixel (d : Device) (r : WriteRequest) : Device :=
  { d with store := d.store.writePixel r.pos r.pixel }

/-- The pixel a granted read returns (R36). -/
def Device.loadPixel (d : Device) (p : PixelPos) : Pixel := d.store.readPixel p

/-- The write that a rotating client has waiting, if its request is a write (R33). -/
def Device.waitingWrite (d : Device) : RotatingClient → Option WriteRequest
  | .port n => (d.port n).writeRequest
  | .blockEngine =>
    match d.engine.request with
    | some (.write r) => some r
    | some (.read _) => none
    | none => none
  | .pixelRead => none

/-- The write of which the grant may have been taken before a step that withdraws the requests of these clients (R35).
One access is made at a time (R33), so it is the write that the arbiter grants next (R34), and no other. -/
def Device.grantable (d : Device) (withdrawn : RotatingClient → Bool) : Option (RotatingClient × WriteRequest) :=
  match d.nextGrant with
  | some (.rotating c) => if withdrawn c then (d.waitingWrite c).map fun r => (c, r) else none
  | some .scan => none
  | none => none

/-- Before a step that withdraws requests, the grant of one of them may have been taken: the write is then made and the
pointer names its client, as at any grant (R34, R35). Whether it was is a free value (R32, R35, R125, log 3). -/
def Device.grantFirst (d : Device) (withdrawn : RotatingClient → Bool) : Device :=
  match d.grantable withdrawn with
  | none => d
  | some (c, r) =>
    { d with
      store := if Config.grantTakenFirst d.freeIndex then d.store.writePixel r.pos r.pixel else d.store
      rotation := if Config.grantTakenFirst d.freeIndex then c else d.rotation
      freeIndex := d.freeIndex + 1 }

end Sys2Proof.Machine
end

