-- ==== Sys2Proof/Machine/JobQueue.lean ====
section
/-! DEFINITION. The job queue of the block engine (spec/08): admission (R146), start (R148), requests (R149) and abort
(R152). -/

namespace Sys2Proof.Machine

/-- Change the first job that meets a test. -/
def updateFirst (test : Job → Bool) (change : Job → Job) : List Job → List Job
  | [] => []
  | j :: rest => if test j then change j :: rest else j :: updateFirst test change rest

/-- A job in QUEUED. -/
def Job.isQueued (j : Job) : Bool := j.state == .queued

/-- A job in RUNNING. -/
def Job.isRunning (j : Job) : Bool := j.state == .running

/-- A job that waits to place its JOB_END record: FINISHED or ABORTED (R150). -/
def Job.isEnded (j : Job) : Bool := j.state == .finished || j.state == .aborted

/-- The running job, if there is one (R142). -/
def Device.runningJob (d : Device) : Option Job := d.engine.jobs.find? Job.isRunning

/-- The position, in a buffer of the job's surface, of the rectangle pixel that the job's progress has reached, in row
order (R149). -/
def Device.jobPos (d : Device) (j : Job) (buffer : BufferId) : PixelPos :=
  (d.surface j.handle.slot).pixelAt buffer (j.rect.x + j.progress % j.rect.width)
    (j.rect.y + j.progress / j.rect.width)

/-- The request a job raises at its present progress: a FILL the write of its colour, a COPY_FORWARD the read of its
source (R149). -/
def Device.jobRequest (d : Device) (j : Job) : EngineRequest :=
  match j.kind with
  | .fill colour => .write ⟨d.jobPos j j.target, colour⟩
  | .copyForward source => .read (d.jobPos j source)

/-- When no job is RUNNING, the oldest QUEUED job starts and raises its first request (R148, R149). -/
def Device.startJob (d : Device) : Device :=
  match d.runningJob, d.engine.jobs.find? Job.isQueued with
  | none, some j =>
    { d with
      engine := { d.engine with
        jobs := updateFirst Job.isQueued (fun k => { k with state := .running }) d.engine.jobs
        request := some (d.jobRequest j) } }
  | _, _ => d

/-- Admission of one job as the newest record, with the next job id, and its start when no job is RUNNING (R141, R146,
R148). -/
def Device.admitJob (d : Device) (kind : JobKind) (h : Handle) (target : BufferId) (rect : Rect) : Device :=
  Device.startJob
    { d with
      engine := { d.engine with
        jobs := d.engine.jobs ++ [⟨d.engine.nextId, kind, h, target, rect, 0, .queued⟩]
        nextId := d.engine.nextId + 1 } }

/-- CLOSE makes a QUEUED or RUNNING job of its surface ABORTED (R152). -/
def Job.abortFor (h : Handle) (j : Job) : Job :=
  if j.handle = h ∧ (j.isQueued ∨ j.isRunning) then { j with state := .aborted } else j

/-- CLOSE aborts the jobs of its surface: the running one's request is withdrawn, and the next QUEUED job starts
(R152). -/
def Device.abortJobs (d : Device) (h : Handle) : Device :=
  let withdrawn := d.engine.jobs.any fun j => j.isRunning && j.handle == h
  Device.startJob
    { d with
      engine := { d.engine with
        jobs := d.engine.jobs.map (Job.abortFor h)
        request := if withdrawn then none else d.engine.request } }

/-- The outcome of an ended job (R150, R152). -/
def Job.outcome (j : Job) : JobOutcome := if j.state = .aborted then .aborted else .done

end Sys2Proof.Machine
end

