-- ==== Sys2Proof/Machine/Ports.lean ====
section
/-! DEFINITION. What the stream ports and the surface table do together: writability (R94), the examination of a
stalled port (R121), port errors (R130), idle intervals (R127) and abandonment (R134). -/

namespace Sys2Proof.Machine

/-- Whether a job references a buffer of its surface: its target, and for a COPY_FORWARD its source (R147). -/
def Job.references (j : Job) (buffer : BufferId) : Bool :=
  j.target == buffer ||
    match j.kind with
    | .fill _ => false
    | .copyForward source => source == buffer

/-- Whether a job in the job queue references a buffer of the surface a handle names (R147). -/
def Device.referenced (d : Device) (h : Handle) (buffer : BufferId) : Bool :=
  d.engine.jobs.any fun j => j.handle == h && j.references buffer

/-- Whether a buffer of a surface is writable (R94): derived, never stored. -/
def Device.writable (d : Device) (h : Handle) (buffer : BufferId) : Bool :=
  match (d.surface h.slot).buffering with
  | .single => buffer == .a && !d.referenced h buffer
  | .double =>
    buffer == (d.surface h.slot).front.other && (d.surface h.slot).flip.leavesWritable
      && !d.referenced h buffer

/-- Begin an idle interval now, under the setting in force (R127). -/
def Device.intervalNow (d : Device) (p : Port) : Option IdleInterval := some ⟨d.timeBase, p.timeoutSetting⟩

/-- A port records an error: last error, the saturating count, and PORTn (R130). -/
def Device.recordError (d : Device) (n : PortNum) (cause : PortError) : Device :=
  (d.setPort n { d.port n with
    lastError := cause
    errorCount := if (d.port n).errorCount < 255 then (d.port n).errorCount + 1 else 255 }).latch (.portError n)

/-- The examination of a port (R121): a port in STALLED whose target buffer is writable fixes that buffer, enters
PIXELS and begins an idle interval. -/
def Device.examinePort (d : Device) (n : PortNum) : Device :=
  match (d.port n).state, (d.port n).burst with
  | .stalled, some b =>
    if d.writable b.target (d.surface b.target.slot).writeBuffer then
      d.setPort n { d.port n with
        state := .pixels
        burst := some { b with buffer := some (d.surface b.target.slot).writeBuffer }
        interval := d.intervalNow (d.port n) }
    else d
  | _, _ => d

/-- The surface table offers an examination to the port bound to a surface (R121). -/
def Device.examineStall (d : Device) (h : Handle) : Device :=
  match d.boundPort h with
  | some n => d.examinePort n
  | none => d

/-- Whether a port is bound to a surface and is in STALLED or PIXELS (R96, R144). -/
def Device.underBurst (d : Device) (h : Handle) : Bool :=
  match d.boundPort h with
  | some n => (d.port n).state == .stalled || (d.port n).state == .pixels
  | none => false

/-- Whether a header or burst is in progress on a port (R134). -/
def PortState.inProgress : PortState → Bool
  | .header => true
  | .stalled => true
  | .pixels => true
  | .idle => false
  | .discarding => false

/-- A header or burst is cut short: a pending write is withdrawn, the error is recorded, header words and burst record
are discarded, the idle interval stops and the port enters DISCARD (R128, R134, R135). -/
def Device.cutShort (d : Device) (n : PortNum) (cause : PortError) : Device :=
  let d := d.recordError n cause
  d.setPort n { d.port n with
    state := .discarding, header := [], burst := none, writeRequest := none, interval := none }

/-- A header or burst ends early; a write of the port granted first is made before it (R35, log 3). -/
def Device.endEarly (d : Device) (n : PortNum) (cause : PortError) : Device :=
  (d.grantFirst fun c => c == .port n).cutShort n cause

/-- Abandonment (R134): a header or burst in progress ends with ABANDONED, and the binding becomes absent. -/
def Device.abandonPort (d : Device) (n : PortNum) : Device :=
  let d := if (d.port n).state.inProgress then d.endEarly n .abandoned else d
  d.setPort n { d.port n with binding := none }

end Sys2Proof.Machine
end

