-- ==== Sys2Proof/Machine/ApplyPoint.lean ====
section
/-! DEFINITION. Apply points and what they take: releases (R18 to R20), the batch apply (R52 to R55), flips (R99 to R101),
idle apply points (R88), the placement of JOB_END records (R150, R151) and the offer of room (R167). -/

namespace Sys2Proof.Machine

/-! ## Release -/

/-- A release, in one step: the slabs return, the RELEASED record is placed, the slot becomes FREE with its generation
kept (R19). -/
def Device.release (d : Device) (i : Slot) : Device :=
  (({ d with freeSlabs := returnSlabs (d.surface i).heldSlabs d.freeSlabs }).setSurface i
      (Surface.freed (d.surface i).generation)).placeRecord
    (.released (d.handleAt i) (d.surface i).heldSlabs.length)

/-- The examination of a slot (R18, R20): a RELEASING slot without jobs is released when there is room, and latches
COMPL_WAIT when there is none. -/
def Device.examineRelease (d : Device) (i : Slot) : Device :=
  if (d.surface i).state = .releasing ∧ d.jobsOutstanding (d.handleAt i) = 0 then
    if d.completionRoom then d.release i else d.latch .complWait
  else d

/-! ## Batch apply -/

/-- What the batch apply does to a surface record (R52, R53, Table 3-2), `placed` telling whether its handle is in the
new committed order. -/
def Surface.applied (placed : Bool) (s : Surface) : Surface :=
  match s.state with
  | .dormant => { s with committed := s.pendingLook, state := if placed then .live else .dormant }
  | .live => { s with committed := s.pendingLook, state := if placed then .live else .dormant }
  | .closing => { s with state := .releasing }
  | .releasing => s
  | .free => s

/-- The slots in CLOSING, in slot order. -/
def Device.closingSlots (d : Device) : List Slot := allSlots.filter fun i => (d.surface i).state == .closing

/-- The batch apply (R52 to R54): pending copies to committed copies, lifecycle states, batch counter, APPLIED record,
staging set OPEN and clean. -/
def Device.applyBatch (d : Device) (idle : Bool) : Device :=
  { d.mapSurfaces (fun i s => s.applied (d.staging.order.contains ⟨i, s.generation⟩)) with
    layers := ⟨d.staging.order, d.staging.background⟩
    staging := { d.staging with state := .opened, dirty := false, batch := d.staging.batch + 1 }
    control := { d.control with
      completions := d.control.completions ++ [.applied (d.staging.batch + 1) d.scan.frameNumber idle] } }

/-! ## Flips -/

/-- A flip (R100): buffers exchanged, flip count, notice tag from the committed tag, FLIP record, SHOWN; then the port
of the surface is offered an examination (R121). -/
def Device.flipSlot (d : Device) (idle : Bool) (i : Slot) : Device :=
  let s := d.surface i
  ((d.setSurface i { s with
        front := s.front.other
        flipCount := s.flipCount + 1
        noticeTag := s.committed.tag
        flip := .shown }).placeRecord
      (.flip (d.handleAt i) s.committed.tag (s.flipCount + 1) (d.scan.frameNumber.extractLsb' 0 16) idle)).examineStall
    (d.handleAt i)

/-- The examination of a slot for a flip (R99, R101). -/
def Device.examineFlip (d : Device) (idle : Bool) (i : Slot) : Device :=
  if (d.surface i).flip = .posted ∧ d.jobsOutstanding (d.handleAt i) = 0 then
    if d.completionRoom then d.flipSlot idle i else d.latch .complWait
  else d

/-! ## Apply points -/

/-- Whether an apply point taken now applies the batch (R50). -/
def Device.takesBatch (d : Device) : Bool := d.staging.state == .armed && d.completionRoom

/-- Step 1 of R55: the batch apply, or COMPL_WAIT when an armed batch finds no room (R51). -/
def Device.offerBatch (d : Device) (idle : Bool) : Device :=
  if d.takesBatch then d.applyBatch idle
  else if d.staging.state = .armed then d.latch .complWait
  else d

/-- An apply point (R55): the batch, the releases of the slots it moved to RELEASING, the flips in slot order. -/
def Device.applyPoint (d : Device) (idle : Bool) : Device :=
  let moved := if d.takesBatch then d.closingSlots else []
  allSlots.foldl (fun e i => e.examineFlip idle i) (moved.foldl Device.examineRelease (d.offerBatch idle))

/-- While STOPPED the scan engine offers an idle apply point (R88). -/
def Device.offerIdle (d : Device) : Device :=
  if d.scan.state = .stopped then d.applyPoint true else d

/-! ## JOB_END records -/

/-- A job leaves the queue as its JOB_END record is placed (R151, steps 1 and 2). -/
def Device.placeJobEnd (d : Device) (j : Job) : Device :=
  { d with
    engine := { d.engine with jobs := d.engine.jobs.eraseP fun k => k.id == j.id && k.isEnded }
    control := { d.control with
      completions := d.control.completions ++ [.jobEnd j.handle j.id j.outcome] } }

/-- An ended job offers its JOB_END record (R150, R152): placed when there is room, with the examinations of R151;
otherwise COMPL_WAIT is latched. -/
def Device.offerJobEnd (d : Device) (id : Byte) : Device :=
  match d.engine.jobs.find? fun k => k.id == id && k.isEnded with
  | none => d
  | some j =>
    if d.completionRoom then
      (((d.placeJobEnd j).examineStall j.handle).examineRelease j.handle.slot).offerIdle
    else d.latch .complWait

/-- The ids of the jobs that wait to place a record, oldest first (R150). -/
def Device.endedJobs (d : Device) : List Byte := (d.engine.jobs.filter Job.isEnded).map Job.id

/-- Room appears: it is offered to the ended jobs, oldest first, then to the waiting releases, lowest slot first, then,
while STOPPED, to an idle apply point (R167). -/
def Device.offerRoom (d : Device) : Device :=
  (allSlots.foldl Device.examineRelease (d.endedJobs.foldl Device.offerJobEnd d)).offerIdle

/-! ## Posts -/

/-- The flip state after a post (R97). -/
def FlipState.posting : FlipState → FlipState
  | .none => .posted
  | .shown => .shownHeld
  | .posted => .posted
  | .shownHeld => .shownHeld

/-- A post is delivered to a surface, and while STOPPED offers an idle apply point (R97, R98, R88). -/
def Device.deliverPost (d : Device) (i : Slot) : Device :=
  (d.setSurface i { d.surface i with flip := (d.surface i).flip.posting }).offerIdle

end Sys2Proof.Machine
end

