-- ==== Sys2Proof/Machine/Binding.lean ====
section
/-! DEFINITION. BIND, UNBIND, PORT_CONFIG and QUERY_PORT at the head of the command queue (spec/07). -/

namespace Sys2Proof.Machine

/-- BIND executes (R132). The bound-port fields of the surfaces follow the port's binding (R3). -/
def bindAtHead (params : List Word) (d : Device) : Device × Reply :=
  match params with
  | [portWord, handle] =>
    let h := handleOf handle
    match d.handleRefusal h with
    | some status => (d, refusal status)
    | none =>
      match decodePort portWord with
      | none => (d, refusal .badParam)
      | some n =>
        if (d.port n).state.inProgress then (d, refusal .busy)
        else if (d.boundPort h).any fun m => m != n then (d, refusal .busy)
        else (d.setPort n { d.port n with binding := some h }, okReply [])
  | _ => (d, refusal .badLength)

/-- UNBIND executes (R133): an unbound port is left as it is. -/
def unbindAtHead (params : List Word) (d : Device) : Device × Reply :=
  match params with
  | [portWord] =>
    match decodePort portWord with
    | none => (d, refusal .badParam)
    | some n => (if (d.port n).binding.isSome then d.abandonPort n else d, okReply [])
  | _ => (d, refusal .badLength)

/-- PORT_CONFIG executes (R136): every setting is in range; a running interval keeps its own. -/
def portConfigAtHead (params : List Word) (d : Device) : Device × Reply :=
  match params with
  | [portWord, setting] =>
    match decodePort portWord with
    | none => (d, refusal .badParam)
    | some n => (d.setPort n { d.port n with timeoutSetting := setting }, okReply [])
  | _ => (d, refusal .badLength)

/-- Source rows of a burst whose last pixel has been written (R137). -/
def Burst.rowsWritten (b : Burst) : Nat := (b.width * b.height - b.remaining) / b.width

/-- The six result words of QUERY_PORT (R137, Table 11-10, R182). -/
def portWords (p : Port) : List Word :=
  [ bitsAt (portStateCode p.state) 0 ||| flagAt p.held 3 ||| flagAt p.binding.isSome 4
      ||| bitsAt (if p.state = .header then p.header.length else 0) 5
      ||| flagAt ((p.state == .stalled || p.state == .pixels) && p.burst.any fun b => b.postOnEnd) 8
      ||| bitsAt (if p.state = .pixels then ((p.burst.bind fun b => b.buffer).map bufferCode).getD 0 else 0) 9
      ||| bitsAt (portErrorCode p.lastError) 12
  , (p.binding.map handleWord).getD 0
  , p.timeoutSetting
  , wordOf p.errorCount
  , p.burstsCompleted
  , wordOf (if p.state = .pixels then (p.burst.map fun b => b.height - b.rowsWritten).getD 0 else 0) ]

/-- QUERY_PORT executes (R137). -/
def queryPortAtHead (params : List Word) (d : Device) : Device × Reply :=
  match params with
  | [portWord] =>
    match decodePort portWord with
    | none => (d, refusal .badParam)
    | some n => (d, okReply (portWords (d.port n)))
  | _ => (d, refusal .badLength)

end Sys2Proof.Machine
end

