-- ==== Sys2Proof/Machine/Jobs.lean ====
section
/-! DEFINITION. FILL and COPY_FORWARD at the head of the command queue (spec/08). -/

namespace Sys2Proof.Machine

/-- Whether a rectangle lies inside the buffers of a surface, the sums taken in full (R144, check 5). -/
def Surface.contains (s : Surface) (r : Rect) : Bool :=
  1 ≤ r.width && 1 ≤ r.height && r.x + r.width ≤ s.width && r.y + r.height ≤ s.height

/-- A rectangle from its four words. -/
def rectOf (x y w h : Word) : Rect := ⟨x.toNat, y.toNat, w.toNat, h.toNat⟩

/-- FILL executes (R144, R146): the result word is the job id. -/
def fillAtHead (params : List Word) (d : Device) : Device × Reply :=
  match params with
  | [handle, selectorWord, x, y, w, ht, colour] =>
    let h := handleOf handle
    let s := d.surface h.slot
    match d.handleRefusal h with
    | some status => (d, refusal status)
    | none =>
      match decodeSelector selectorWord with
      | none => (d, refusal .badParam)
      | some selector =>
        if s.buffering = .double ∧ selector = .front then (d, refusal .badParam)
        else if s.contains (rectOf x y w ht) = false then (d, refusal .badParam)
        else if d.underBurst h then (d, refusal .busy)
        else if s.flip.leavesWritable then
          (d.admitJob (.fill colour) h s.writeBuffer (rectOf x y w ht), okReply [d.engine.nextId.setWidth 16])
        else (d, refusal .badState)
  | _ => (d, refusal .badLength)

/-- COPY_FORWARD executes (R145, R146): the result word is the job id. -/
def copyForwardAtHead (params : List Word) (d : Device) : Device × Reply :=
  match params with
  | [handle, x, y, w, ht] =>
    let h := handleOf handle
    let s := d.surface h.slot
    match d.handleRefusal h with
    | some status => (d, refusal status)
    | none =>
      if s.buffering = .single then (d, refusal .badState)
      else if s.contains (rectOf x y w ht) = false then (d, refusal .badParam)
      else if d.underBurst h then (d, refusal .busy)
      else if s.flip.leavesWritable then
        (d.admitJob (.copyForward s.front) h s.writeBuffer (rectOf x y w ht),
          okReply [d.engine.nextId.setWidth 16])
      else (d, refusal .badState)
  | _ => (d, refusal .badLength)

end Sys2Proof.Machine
end

