-- ==== Sys2Proof/Machine/Staging.lean ====
section
/-! DEFINITION. SET_POSITION, SET_LOOK, SET_BACKGROUND, COMMIT, DISCARD and QUERY_STAGING at the head of the command
queue (spec/03). -/

namespace Sys2Proof.Machine

/-- The dirty flag is set (R41). -/
def Device.markDirty (d : Device) : Device := { d with staging := { d.staging with dirty := true } }

/-- A pending appearance is edited and the dirty flag is set (R40, R41). -/
def Device.editPending (d : Device) (i : Slot) (look : Appearance) : Device :=
  (d.setSurface i { d.surface i with pendingLook := look }).markDirty

/-- SET_POSITION executes (R44). -/
def setPositionAtHead (params : List Word) (d : Device) : Device × Reply :=
  match params with
  | [handle, x, y] =>
    match d.handleRefusal (handleOf handle) with
    | some status => (d, refusal status)
    | none =>
      if x.toNat ≤ 2047 ∧ y.toNat ≤ 2047 then
        (d.editPending (handleOf handle).slot
          { (d.surface (handleOf handle).slot).pendingLook with x := x.toNat, y := y.toNat }, okReply [])
      else (d, refusal .badParam)
  | _ => (d, refusal .badLength)

/-- SET_LOOK executes (R45). -/
def setLookAtHead (params : List Word) (d : Device) : Device × Reply :=
  match params with
  | [handle, lookWord] =>
    match d.handleRefusal (handleOf handle) with
    | some status => (d, refusal status)
    | none =>
      match decodeLook lookWord with
      | some look =>
        (d.editPending (handleOf handle).slot
          { (d.surface (handleOf handle).slot).pendingLook with opacity := look.opacity, tag := look.tag },
          okReply [])
      | none => (d, refusal .badParam)
  | _ => (d, refusal .badLength)

/-- SET_BACKGROUND executes (R46). -/
def setBackgroundAtHead (params : List Word) (d : Device) : Device × Reply :=
  match params with
  | [colour] => ({ d with staging := { d.staging with background := colour, dirty := true } }, okReply [])
  | _ => (d, refusal .badLength)

/-- COMMIT executes (R48, R49): result word 0 NOTHING_STAGED or 1 ARMED; arming offers an idle apply point (R88). -/
def commitAtHead (params : List Word) (d : Device) : Device × Reply :=
  match params with
  | [] =>
    if d.staging.dirty then
      (({ d with staging := { d.staging with state := .armed } }).offerIdle, okReply [1])
    else (d, okReply [0])
  | _ => (d, refusal .badLength)

/-- What DISCARD does to a surface record (R57, R58). -/
def Surface.discarded (s : Surface) : Surface :=
  match s.state with
  | .dormant => { s with pendingLook := s.committed }
  | .live => { s with pendingLook := s.committed }
  | .closing => { s with pendingLook := s.committed, state := .live }
  | .free => s
  | .releasing => s

/-- DISCARD makes the pending copies equal to the committed ones (R57). -/
def Device.discardBatch (d : Device) : Device :=
  { d.mapSurfaces (fun _ s => s.discarded) with
    staging := { d.staging with order := d.layers.order, background := d.layers.background, dirty := false } }

/-- DISCARD executes (R57, R58): the result word counts the surfaces returned to LIVE. -/
def discardAtHead (params : List Word) (d : Device) : Device × Reply :=
  match params with
  | [] => (d.discardBatch, okReply [wordOf d.closingSlots.length])
  | _ => (d, refusal .badLength)

/-- A word with one flag per slot (Table 11-10). -/
def slotFlags (test : Slot → Bool) : Word :=
  allSlots.foldl (fun w i => w ||| flagAt (test i) i.val) 0

/-- Whether the next apply would change the appearance of a slot (R59). -/
def Surface.looksChanged (s : Surface) : Bool := s.state.editable && s.pendingLook != s.committed

/-- The six result words of QUERY_STAGING (R59, Table 11-10). -/
def stagingWords (d : Device) : List Word :=
  [ flagAt (d.staging.state == .armed) 0 ||| flagAt d.staging.dirty 1 ||| bitsAt d.staging.order.length 4
      ||| bitsAt d.closingSlots.length 8
  , d.staging.batch
  , d.staging.background
  , d.layers.background
  , slotFlags fun i => (d.surface i).looksChanged
  , slotFlags fun i => (d.surface i).state == .closing ]

/-- QUERY_STAGING executes (R59). -/
def queryStagingAtHead (params : List Word) (d : Device) : Device × Reply :=
  match params with
  | [] => (d, okReply (stagingWords d))
  | _ => (d, refusal .badLength)

end Sys2Proof.Machine
end

