-- ==== Sys2Proof/Machine/Layers.lean ====
section
/-! DEFINITION. PLACE, UNPLACE and QUERY_ORDER at the head of the command queue (spec/04). -/

namespace Sys2Proof.Machine

/-- Insert a handle directly after an anchor (R65). -/
def insertAbove (anchor h : Handle) : List Handle → List Handle
  | [] => [h]
  | k :: rest => if k = anchor then k :: h :: rest else k :: insertAbove anchor h rest

/-- Insert a handle directly before an anchor (R65). -/
def insertBelow (anchor h : Handle) : List Handle → List Handle
  | [] => [h]
  | k :: rest => if k = anchor then h :: k :: rest else k :: insertBelow anchor h rest

/-- The pending order after a PLACE: the handle is removed if present, then inserted (R65). -/
def placed (order : List Handle) (h : Handle) (placement : Placement) (anchor : Handle) : List Handle :=
  match placement with
  | .top => order.erase h ++ [h]
  | .bottom => h :: order.erase h
  | .above => insertAbove anchor h (order.erase h)
  | .below => insertBelow anchor h (order.erase h)

/-- Whether a where word makes PLACE examine its anchor (R64, check 5). -/
def Placement.anchored : Placement → Bool
  | .above => true
  | .below => true
  | .top => false
  | .bottom => false

/-- The pending order is replaced and the dirty flag is set (R41). -/
def Device.setPending (d : Device) (order : List Handle) : Device :=
  { d with staging := { d.staging with order := order, dirty := true } }

/-- PLACE executes (R64, R65): the result word is the place of the handle. -/
def placeAtHead (params : List Word) (d : Device) : Device × Reply :=
  match params with
  | [handle, whereWord, anchorWord] =>
    let h := handleOf handle
    let anchor := handleOf anchorWord
    match d.handleRefusal h with
    | some status => (d, refusal status)
    | none =>
      match decodePlacement whereWord with
      | none => (d, refusal .badParam)
      | some placement =>
        if placement.anchored = true ∧ (anchor = h ∨ anchor ∉ d.staging.order) then (d, refusal .badParam)
        else if h ∉ d.staging.order ∧ Config.orderCapacity ≤ d.staging.order.length then (d, refusal .listFull)
        else
          (d.setPending (placed d.staging.order h placement anchor),
            okReply [wordOf ((placed d.staging.order h placement anchor).idxOf h)])
  | _ => (d, refusal .badLength)

/-- UNPLACE executes (R66). -/
def unplaceAtHead (params : List Word) (d : Device) : Device × Reply :=
  match params with
  | [handle] =>
    match d.handleRefusal (handleOf handle) with
    | some status => (d, refusal status)
    | none =>
      if handleOf handle ∈ d.staging.order then
        (d.setPending (d.staging.order.erase (handleOf handle)), okReply [])
      else (d, refusal .badState)
  | _ => (d, refusal .badLength)

/-- Four places of an order in one word, the lowest in bits 3:0; places beyond the list read as 0 (R67). -/
def fourPlaces (order : List Handle) (first : Nat) : Word :=
  let slot := fun k => ((order[first + k]?).map fun h => h.slot.val).getD 0
  bitsAt (slot 0) 0 ||| bitsAt (slot 1) 4 ||| bitsAt (slot 2) 8 ||| bitsAt (slot 3) 12

/-- The five result words of QUERY_ORDER (R67, Table 11-10). -/
def orderWords (d : Device) : List Word :=
  [ bitsAt d.staging.order.length 0 ||| bitsAt d.layers.order.length 4
  , fourPlaces d.staging.order 0
  , fourPlaces d.staging.order 4
  , fourPlaces d.layers.order 0
  , fourPlaces d.layers.order 4 ]

/-- QUERY_ORDER executes (R67). -/
def queryOrderAtHead (params : List Word) (d : Device) : Device × Reply :=
  match params with
  | [] => (d, okReply (orderWords d))
  | _ => (d, refusal .badLength)

end Sys2Proof.Machine
end

