-- ==== Sys2Proof/Machine/Panel.lean ====
section
/-! DEFINITION. PANEL_SETUP, PANEL_START, PANEL_STOP and QUERY_PANEL at the head of the command queue, and the
periods in which the panel output is active or a sync is (spec/05). -/

namespace Sys2Proof.Machine

/-- A panel setup in the ranges of Table 5-1, as the five words of PANEL_SETUP give it. -/
def decodeSetup (aw ah hb vb timingWord : Word) : Option PanelSetup :=
  match decodeTiming timingWord with
  | none => none
  | some t =>
    if (16 ≤ aw.toNat ∧ aw.toNat ≤ 1024) ∧ (16 ≤ ah.toNat ∧ ah.toNat ≤ 768) ∧ (8 ≤ hb.toNat ∧ hb.toNat ≤ 1023)
        ∧ (1 ≤ vb.toNat ∧ vb.toNat ≤ 255) then
      some ⟨aw.toNat, ah.toNat, hb.toNat, vb.toNat, t.divider, t.hPolarity, t.vPolarity⟩
    else none

/-- Whether a setup is valid: an active width of 0 marks it invalid (R77). -/
def PanelSetup.valid (p : PanelSetup) : Bool := p.activeWidth != 0

/-- PANEL_SETUP executes (R78). -/
def panelSetupAtHead (params : List Word) (d : Device) : Device × Reply :=
  match params with
  | [aw, ah, hb, vb, timingWord] =>
    if d.scan.state = .stopped then
      match decodeSetup aw ah hb vb timingWord with
      | some setup => ({ d with scan := { d.scan with setup := setup } }, okReply [])
      | none => (d, refusal .badParam)
    else (d, refusal .badState)
  | _ => (d, refusal .badLength)

/-- The lead-in begins at its first line and period; nothing is composed yet (R82). -/
def ScanEngine.started (s : ScanEngine) : ScanEngine :=
  { s with state := .running, position := some (.leadIn 0 0), driven := 0, composing := 0, reads := [], opening := false }

/-- PANEL_START executes (R81): result word 0 STARTED or 1 RESUMED. -/
def panelStartAtHead (params : List Word) (d : Device) : Device × Reply :=
  match params with
  | [] =>
    match d.scan.state with
    | .stopped =>
      if d.scan.setup.valid then ({ d with scan := d.scan.started }, okReply [0])
      else (d, refusal .badState)
    | .draining => ({ d with scan := { d.scan with state := .running } }, okReply [1])
    | .running => (d, refusal .badState)
  | _ => (d, refusal .badLength)

/-- PANEL_STOP executes (R83): result word 0 DRAINING_BEGUN or 1 ALREADY_DRAINING. -/
def panelStopAtHead (params : List Word) (d : Device) : Device × Reply :=
  match params with
  | [] =>
    match d.scan.state with
    | .running => ({ d with scan := { d.scan with state := .draining } }, okReply [0])
    | .draining => (d, okReply [1])
    | .stopped => (d, refusal .badState)
  | _ => (d, refusal .badLength)

/-- The six result words of QUERY_PANEL (R90, Table 11-10): a divider of 16 reads 0. -/
def panelWords (d : Device) : List Word :=
  let p := d.scan.setup
  [ bitsAt (scanStateCode d.scan.state) 0 ||| bitsAt (p.divider % 16) 2 ||| bitsAt (polarityCode p.hPolarity) 6
      ||| bitsAt (polarityCode p.vPolarity) 7 ||| bitsAt p.vBlank 8
  , wordOf p.activeWidth
  , wordOf p.activeHeight
  , wordOf p.hBlank
  , d.scan.frameNumber.extractLsb' 0 16
  , d.scan.frameNumber.extractLsb' 16 16 ]

/-- QUERY_PANEL executes (R90). -/
def queryPanelAtHead (params : List Word) (d : Device) : Device × Reply :=
  match params with
  | [] => (d, okReply (panelWords d))
  | _ => (d, refusal .badLength)

/-! ## Panel output -/

/-- The level of a sync output, `true` high, from its polarity and whether it is active (R80). -/
def syncLevel (p : Polarity) (active : Bool) : Bool :=
  match p with
  | .activeLow => !active
  | .activeHigh => active

/-- The period within the line that a position drives. -/
def ScanPos.period : ScanPos → Nat
  | .leadIn _ k => k
  | .frame _ k => k

/-- Whether a position is an active period: one of the first AW periods of one of the first AH lines (R79). -/
def PanelSetup.activeAt (p : PanelSetup) : ScanPos → Bool
  | .leadIn _ _ => false
  | .frame line k => line < p.activeHeight && k < p.activeWidth

/-- Whether the horizontal sync is active: blank periods 2 to 5 of the HB blank periods that end every line (R80, log
8). -/
def PanelSetup.hSyncAt (p : PanelSetup) (pos : ScanPos) : Bool :=
  p.activeWidth + 2 ≤ pos.period && pos.period ≤ p.activeWidth + 5

/-- Whether the vertical sync is active: the first lead-in line, and blank line AH of a frame (R80). -/
def PanelSetup.vSyncAt (p : PanelSetup) : ScanPos → Bool
  | .leadIn line _ => line == 0
  | .frame line _ => line == p.activeHeight

end Sys2Proof.Machine
end

