-- ==== Sys2Proof/Machine/Pool.lean ====
section
/-! DEFINITION. QUERY_POOL and PIXEL_READ at the head of the command queue (spec/02). -/

namespace Sys2Proof.Machine

/-- The slabs held by the slots whose state meets a test (R39). -/
def Device.slabsHeld (d : Device) (test : SlotState → Bool) : Nat :=
  ((allSlots.filter fun i => test (d.surface i).state).map fun i => (d.surface i).heldSlabs.length).sum

/-- The four result words of QUERY_POOL (R39). -/
def poolWords (d : Device) : List Word :=
  [ wordOf d.freeSlabs.length
  , wordOf (d.slabsHeld SlotState.named)
  , wordOf (d.slabsHeld fun s => s == .releasing)
  , wordOf ((d.freeSlabs.head?.map Fin.val).getD 256) ]

/-- QUERY_POOL executes (R39). -/
def queryPoolAtHead (params : List Word) (d : Device) : Device × Reply :=
  match params with
  | [] => (d, okReply (poolWords d))
  | _ => (d, refusal .badLength)

/-- The buffer a selector names, at execution (R37). -/
def Surface.selected (s : Surface) (selector : Selector) : BufferId :=
  match s.buffering, selector with
  | .single, _ => .a
  | .double, .front => s.front
  | .double, .back => s.front.other

/-- PIXEL_READ executes (R37, R38): a refusal is answered at once; a read that passes its checks raises its request and
stays at the head without an answer. -/
def pixelReadAtHead (params : List Word) (d : Device) : Device × Option Reply :=
  match params with
  | [handle, selectorWord, x, y] =>
    if d.validHandle (handleOf handle) then
      match decodeSelector selectorWord with
      | none => (d, some (refusal .badParam))
      | some selector =>
        let s := d.surface (handleOf handle).slot
        if x.toNat < s.width ∧ y.toNat < s.height then
          ({ d with
              pixelRead := some ⟨s.pixelAt (s.selected selector) x.toNat y.toNat, s.selected selector⟩ }, none)
        else (d, some (refusal .badParam))
    else (d, some (refusal .badHandle))
  | _ => (d, some (refusal .badLength))

end Sys2Proof.Machine
end

