-- ==== Sys2Proof/Machine/Posts.lean ====
section
/-! DEFINITION. POST at the head of the command queue, and the acknowledgement (spec/06). -/

namespace Sys2Proof.Machine

/-- POST executes (R96, R97): the result word is the flip state as the command leaves it. -/
def postAtHead (params : List Word) (d : Device) : Device × Reply :=
  match params with
  | [handle] =>
    let h := handleOf handle
    match d.handleRefusal h with
    | some status => (d, refusal status)
    | none =>
      if (d.surface h.slot).buffering = .single then (d, refusal .badState)
      else if d.underBurst h then (d, refusal .busy)
      else if (d.surface h.slot).flip.leavesWritable then
        (d.deliverPost h.slot, okReply [wordOf (flipCode ((d.deliverPost h.slot).surface h.slot).flip)])
      else (d, refusal .badState)
  | _ => (d, refusal .badLength)

/-- Whether an acknowledgement of value `t` matches a surface: SHOWN or SHOWN_HELD with that notice tag, the value
compared whole (R103). -/
def Surface.matchesAck (t : Word) (s : Surface) : Bool := s.flip.noticed && s.noticeTag == t.toNat

/-- What a matching acknowledgement does (R103): SHOWN becomes NONE, SHOWN_HELD becomes POSTED. -/
def Surface.acked (t : Word) (s : Surface) : Surface :=
  if s.matchesAck t then { s with flip := if s.flip = .shownHeld then .posted else .none } else s

/-- An acknowledgement taken by the surface table (R103, R104): no match latches STRAY_ACK; a surface moved to POSTED
offers an idle apply point while STOPPED (R88). -/
def Device.acknowledge (d : Device) (t : Word) : Device :=
  if allSlots.any fun i => (d.surface i).matchesAck t then
    let acked := d.mapSurfaces fun _ s => s.acked t
    if allSlots.any fun i => (d.surface i).matchesAck t && (d.surface i).flip == .shownHeld then acked.offerIdle
    else acked
  else d.latch .strayAck

end Sys2Proof.Machine
end

