-- ==== Sys2Proof/Machine/SceneReset.lean ====
section
/-! DEFINITION. SCENE_RESET at the head of the command queue (R170), each block's part by its own chapter. -/

namespace Sys2Proof.Machine

/-- The surface table's part (R24): every slot FREE with its generation kept. -/
def Surface.sceneReset (s : Surface) : Surface := Surface.freed s.generation

/-- The scan engine's part (R74, R92): the panel pixel being composed is completed from the reads raised so far, of
which one waits at the arbiter (R33, log 17), and no further read is raised. -/
def ScanEngine.sceneReset (s : ScanEngine) : ScanEngine := { s with reads := s.reads.take 1 }

/-- One port's part (R139): a header or burst in progress is cut short with ABANDONED, and the binding becomes absent. -/
def Device.leavePort (d : Device) (n : PortNum) : Device :=
  let d := if (d.port n).state.inProgress then d.cutShort n .abandoned else d
  d.setPort n { d.port n with binding := none }

/-- Whether a client is a port with a header or burst in progress, whose write a scene reset withdraws (R35, R139). -/
def Device.portInProgress (d : Device) : RotatingClient → Bool
  | .port n => (d.port n).state.inProgress
  | .blockEngine => false
  | .pixelRead => false

/-- The stream ports' part (R139), after the one write whose grant may have been taken first (R33, R35, log 3). The
abandonments touch each its own port and PORTn, so no order of the ports can be told from another. -/
def Device.abandonAll (d : Device) : Device := allPorts.foldl Device.leavePort (d.grantFirst d.portInProgress)

/-- Each block's part of the scene reset but the stream ports' (R24, R30, R61, R74, R76, R92, R113, R155, R170). -/
def Device.clearScene (d : Device) : Device :=
  { d with
    control := { d.control with completions := [], completionRead := 0 }
    surfaces := Vector.ofFn fun i => d.surfaces[i].sceneReset
    freeSlabs := allSlabs
    staging := { d.staging with state := .opened, dirty := false, order := [], background := d.layers.background }
    layers := { d.layers with order := [] }
    scan := d.scan.sceneReset
    engine := { d.engine with jobs := [], request := none } }

/-- The scene reset, in one step across the SC16 (R139, R170). -/
def Device.sceneReset (d : Device) : Device := d.abandonAll.clearScene

/-- SCENE_RESET executes (R170). -/
def sceneResetAtHead (params : List Word) (d : Device) : Device × Reply :=
  match params with
  | [] => (d.sceneReset, okReply [])
  | _ => (d, refusal .badLength)

end Sys2Proof.Machine
end

