-- ==== Sys2Proof/Machine/Surfaces.lean ====
section
/-! DEFINITION. OPEN, CLOSE and QUERY_SURFACE at the head of the command queue (spec/01). -/

namespace Sys2Proof.Machine

/-! ## OPEN -/

/-- The lowest-numbered FREE slot (R9). -/
def Device.freeSlot (d : Device) : Option Slot := allSlots.find? fun i => (d.surface i).state == .free

/-- Whether the words of an OPEN other than mode and look are in range (R8, check 1). -/
def openInRange (sw sh x y : Word) : Bool :=
  1 ≤ sw.toNat && sw.toNat ≤ 1024 && 1 ≤ sh.toNat && sh.toNat ≤ 1024 && x.toNat ≤ 2047 && y.toNat ≤ 2047

/-- The slabs an OPEN requests, for `n` slabs in one buffer (R10). -/
def slabsWanted (buffering : Buffering) (n : Nat) : Nat :=
  match buffering with
  | .single => n
  | .double => 2 * n

/-- The record of a surface just opened (R11): buffer A has the first `n` slabs granted, buffer B the next `n`. -/
def Surface.opened (old : Surface) (mode : OpenMode) (look : Look) (sw sh x y : Nat) (granted : List Slab) (n : Nat) :
    Surface where
  state := .dormant
  generation := nextGeneration old.generation
  buffering := mode.buffering
  orientation := mode.orientation
  sourceWidth := sw
  sourceHeight := sh
  bufferA := granted.take n
  bufferB :=
    match mode.buffering with
    | .single => none
    | .double => some (granted.drop n)
  front := .a
  committed := ⟨x, y, look.opacity, look.tag⟩
  pendingLook := ⟨x, y, look.opacity, look.tag⟩
  flip := .none
  noticeTag := 0
  flipCount := 0

/-- The whole buffer of a surface (R12). -/
def Surface.wholeRect (s : Surface) : Rect := ⟨0, 0, s.width, s.height⟩

/-- A slot is taken: the lowest free slabs leave the pool and the slot becomes DORMANT (R10, R11, R29). -/
def Device.takeSlot (d : Device) (i : Slot) (mode : OpenMode) (look : Look) (sw sh x y : Nat) : Device :=
  let n := slabsFor sw sh
  let wanted := slabsWanted mode.buffering n
  ({ d with freeSlabs := d.freeSlabs.drop wanted }).setSurface i
    (Surface.opened (d.surface i) mode look sw sh x y (d.freeSlabs.take wanted) n)

/-- The fill jobs of an OPEN with the fill flag, buffer A's first (R12). -/
def Device.openingFills (d : Device) (i : Slot) (colour : Pixel) : Device :=
  let a := d.admitJob (.fill colour) (d.handleAt i) .a (d.surface i).wholeRect
  match (d.surface i).buffering with
  | .single => a
  | .double => a.admitJob (.fill colour) (d.handleAt i) .b (d.surface i).wholeRect

/-- The job ids that an OPEN answers (R11): the ids its fill jobs take. -/
def openJobIds (mode : OpenMode) (nextId : Byte) : List Word :=
  if mode.fill then
    match mode.buffering with
    | .single => [nextId.setWidth 16]
    | .double => [nextId.setWidth 16, (nextId + 1).setWidth 16]
  else []

/-- OPEN executes (R8 to R12). -/
def openAtHead (params : List Word) (d : Device) : Device × Reply :=
  match params with
  | [modeWord, sw, sh, x, y, lookWord, colour] =>
    match decodeMode modeWord, decodeLook lookWord with
    | some mode, some look =>
      if openInRange sw sh x y then
        match d.freeSlot with
        | none => (d, refusal .noSpace)
        | some i =>
          if d.freeSlabs.length < slabsWanted mode.buffering (slabsFor sw.toNat sh.toNat) then
            (d, refusal .noSpace)
          else
            let opened := d.takeSlot i mode look sw.toNat sh.toNat x.toNat y.toNat
            (if mode.fill then opened.openingFills i colour else opened,
              okReply (handleWord (opened.handleAt i) :: wordOf (slabsFor sw.toNat sh.toNat)
                :: openJobIds mode d.engine.nextId))
      else (d, refusal .badParam)
    | _, _ => (d, refusal .badParam)
  | _ => (d, refusal .badLength)

/-! ## CLOSE -/

/-- The withdrawals of both forms of CLOSE (R14) other than the JOB_END records of R152: the port is unbound, the jobs
are aborted, the flip state becomes NONE. -/
def Device.closeWithdraw (d : Device) (h : Handle) : Device :=
  let d :=
    match d.boundPort h with
    | some n => d.abandonPort n
    | none => d
  let d := d.abortJobs h
  d.setSurface h.slot { d.surface h.slot with flip := .none }

/-- The surface's handle leaves the pending order; entries above it move down (R15, R16). -/
def Device.dropFromPending (d : Device) (h : Handle) : Device :=
  { d with staging := { d.staging with order := d.staging.order.erase h } }

/-- The ids of the jobs a CLOSE of the surface aborts, in admission order (R152). -/
def Device.abortedIds (d : Device) (h : Handle) : List Byte :=
  (d.engine.jobs.filter fun j => j.handle == h && (j.isQueued || j.isRunning)).map Job.id

/-- Change the lifecycle state of a slot. -/
def Device.setSlotState (d : Device) (i : Slot) (state : SlotState) : Device :=
  d.setSurface i { d.surface i with state := state }

/-- The immediate form (R15): RELEASING, the aborted jobs' records (R152), then the examination of the release. -/
def Device.closeImmediate (d : Device) (h : Handle) : Device :=
  let closed := ((d.dropFromPending h).closeWithdraw h).setSlotState h.slot .releasing
  ((d.abortedIds h).foldl Device.offerJobEnd closed).examineRelease h.slot

/-- The staged form (R16): CLOSING and dirty, then the aborted jobs' records (R152). -/
def Device.closeStaged (d : Device) (h : Handle) : Device :=
  let closed := ((d.dropFromPending h).closeWithdraw h).setSlotState h.slot .closing
  (d.abortedIds h).foldl Device.offerJobEnd
    { closed with staging := { closed.staging with dirty := true } }

/-- CLOSE executes (R13): result word 0 IMMEDIATE or 1 STAGED. -/
def closeAtHead (params : List Word) (d : Device) : Device × Reply :=
  match params with
  | [handle] =>
    match d.handleRefusal (handleOf handle) with
    | some status => (d, refusal status)
    | none =>
      if (d.surface (handleOf handle).slot).state = .live then
        (d.closeStaged (handleOf handle), okReply [1])
      else (d.closeImmediate (handleOf handle), okReply [0])
  | _ => (d, refusal .badLength)

/-! ## QUERY_SURFACE -/

/-- The six result words of QUERY_SURFACE (R22, Table 11-9, R182). R107 names the flip count too; no word
and no bit can carry it: there are six words (R22, R163), and a bit without a field reads 0 (R182, log 25). -/
def surfaceWords (d : Device) (h : Handle) : List Word :=
  let s := d.surface h.slot
  let bound := d.boundPort h
  [ bitsAt (slotStateCode s.state) 0 ||| flagAt (s.buffering == .double) 2
      ||| bitsAt (orientationCode s.orientation) 3 ||| bitsAt (bufferCode s.front) 6
      ||| bitsAt (flipCode s.flip) 7 ||| flagAt bound.isSome 9 ||| bitsAt ((bound.map Fin.val).getD 0) 10
      ||| bitsAt (d.jobsOutstanding h) 12 ||| bitsAt (s.committed.opacity / 16) 15
  , wordOf s.sourceWidth
  , wordOf s.sourceHeight
  , wordOf s.committed.x
  , wordOf s.committed.y
  , bitsAt s.committed.tag 0 ||| bitsAt s.noticeTag 6 ||| bitsAt (s.committed.opacity % 16) 12 ]

/-- QUERY_SURFACE executes (R22); carried out for a CLOSING surface too (R6). -/
def querySurfaceAtHead (params : List Word) (d : Device) : Device × Reply :=
  match params with
  | [handle] =>
    if d.validHandle (handleOf handle) then (d, okReply (surfaceWords d (handleOf handle)))
    else (d, refusal .badHandle)
  | _ => (d, refusal .badLength)

end Sys2Proof.Machine
end

