-- ==== Sys2Proof/Machine/Waiting.lean ====
section
/-! DEFINITION. When the head of the command queue executes (R160, R161), and what the read locations of the control
port report (R156, R169, R172). -/

namespace Sys2Proof.Machine

/-- The waiting class of a command (R161). OPEN is job-class only with L = 8 and the fill flag of its mode word set;
it needs two places when the buffering field reads DOUBLE, one otherwise. -/
def waitClass (c : QueuedCommand) : WaitClass :=
  match commandOf (opcodeField c.word0) with
  | some .setPosition => .staging
  | some .setLook => .staging
  | some .setBackground => .staging
  | some .place => .staging
  | some .unplace => .staging
  | some .closeSurface => .staging
  | some .commit => .staging
  | some .discard => .staging
  | some .fill => .job 1
  | some .copyForward => .job 1
  | some .openSurface =>
    match c.params with
    | mode :: _ =>
      if c.held = 8 ∧ mode.getLsbD 8 then
        if fieldOf mode 0 2 = 1 then .job 2 else .job 1
      else .unclassed
    | [] => .unclassed
  | _ => .unclassed

/-- Whether the conditions of a class hold (R160): the staging set OPEN, or room in the job queue for every job the
command admits. -/
def Device.classReady (d : Device) : WaitClass → Bool
  | .unclassed => true
  | .staging => d.staging.state == .opened
  | .job places => d.engine.jobs.length + places ≤ Config.jobCapacity

/-- Whether the head executes (R160): all its words stored, response room, the conditions of its class, and no
PIXEL_READ already in execution. -/
def Device.headReady (d : Device) (c : QueuedCommand) : Bool :=
  d.pixelRead.isNone && c.complete && d.responseRoom && d.classReady (waitClass c)

/-- The head-waiting cause, the first that holds (R169). -/
def Device.waitCause (d : Device) : WaitCause :=
  match d.control.commands with
  | [] => .none
  | c :: _ =>
    if !c.complete then .incomplete
    else if !d.responseRoom then .responseRoom
    else
      match waitClass c with
      | .staging => if d.staging.state = .armed then .stagingArmed else .none
      | .job places => if d.engine.jobs.length + places ≤ Config.jobCapacity then .none else .jobRoom
      | .unclassed => if d.pixelRead.isSome then .frameStoreRead else .none

/-- The code of a head-waiting cause (Table 11-15). -/
def waitCauseCode : WaitCause → Nat
  | .none => 0
  | .incomplete => 1
  | .responseRoom => 2
  | .stagingArmed => 3
  | .jobRoom => 4
  | .frameStoreRead => 5

/-- The code of the command assembly record (Table 11-15). -/
def assemblyCode : Assembly → Nat
  | .idle => 0
  | .collecting _ _ => 1
  | .dropping _ _ => 2

/-- The code of the staging state (Tables 11-10 and 11-15). -/
def stagingCode : StagingState → Nat
  | .opened => 0
  | .armed => 1

/-- QUEUE_STATUS: response count, completion count, job count (R169, Table 11-15). -/
def Device.queueStatus (d : Device) : Word :=
  bitsAt d.control.responses.length 0 ||| bitsAt d.control.completions.length 4
    ||| bitsAt d.engine.jobs.length 9

/-- DEVICE_STATUS: scan state, staging state and dirty flag, assembly state, head-waiting cause (R169, Table 11-15). -/
def Device.deviceStatus (d : Device) : Word :=
  bitsAt (scanStateCode d.scan.state) 0 ||| bitsAt (stagingCode d.staging.state) 2 ||| flagAt d.staging.dirty 3
    ||| bitsAt (assemblyCode d.control.assembly) 4 ||| bitsAt (waitCauseCode d.waitCause) 8

/-- The next word of the oldest response, or 0000h (R165). -/
def Device.nextResponseWord (d : Device) : Word :=
  match d.control.responses with
  | [] => 0
  | r :: _ => (responseWords r).getD d.control.responseRead 0

/-- The next word of the oldest completion record, or 0000h (R166). -/
def Device.nextRecordWord (d : Device) : Word :=
  match d.control.completions with
  | [] => 0
  | r :: _ => (recordWords r).getD d.control.completionRead 0

/-- What a read of a location returns (R156, Table 9-1); 0000h while RESET_N is low. A read of a location other than
RESP and COMPL changes nothing, and the table has no row for it (log 14). -/
def Device.readLocation (d : Device) (l : Location) : Word :=
  if d.pins.resetN then
    match l with
    | .cmd => wordOf d.freeWords
    | .resp => d.nextResponseWord
    | .compl => d.nextRecordWord
    | .ack => 0
    | .event => d.eventWord
    | .eventEnable => d.events.enabled
    | .queueStatus => d.queueStatus
    | .deviceStatus => d.deviceStatus
  else 0

end Sys2Proof.Machine
end

