-- ==== Sys2Proof/Machine/Processor.lean ====
section
/-! DEFINITION. The command processor (spec/09 9.3): the checks of R162, the execution of the head, and the run of heads
that one event releases (R160). -/

namespace Sys2Proof.Machine

/-- A command is carried out by the block that owns it (R162); only a PIXEL_READ that passes its checks gives no
answer yet (R38). -/
def runCommand (c : Command) (params : List Word) (d : Device) : Device × Option Reply :=
  match c with
  | .openSurface => ((openAtHead params d).1, some (openAtHead params d).2)
  | .closeSurface => ((closeAtHead params d).1, some (closeAtHead params d).2)
  | .querySurface => ((querySurfaceAtHead params d).1, some (querySurfaceAtHead params d).2)
  | .queryPool => ((queryPoolAtHead params d).1, some (queryPoolAtHead params d).2)
  | .pixelRead => pixelReadAtHead params d
  | .setPosition => ((setPositionAtHead params d).1, some (setPositionAtHead params d).2)
  | .setLook => ((setLookAtHead params d).1, some (setLookAtHead params d).2)
  | .setBackground => ((setBackgroundAtHead params d).1, some (setBackgroundAtHead params d).2)
  | .commit => ((commitAtHead params d).1, some (commitAtHead params d).2)
  | .discard => ((discardAtHead params d).1, some (discardAtHead params d).2)
  | .queryStaging => ((queryStagingAtHead params d).1, some (queryStagingAtHead params d).2)
  | .place => ((placeAtHead params d).1, some (placeAtHead params d).2)
  | .unplace => ((unplaceAtHead params d).1, some (unplaceAtHead params d).2)
  | .queryOrder => ((queryOrderAtHead params d).1, some (queryOrderAtHead params d).2)
  | .panelSetup => ((panelSetupAtHead params d).1, some (panelSetupAtHead params d).2)
  | .panelStart => ((panelStartAtHead params d).1, some (panelStartAtHead params d).2)
  | .panelStop => ((panelStopAtHead params d).1, some (panelStopAtHead params d).2)
  | .queryPanel => ((queryPanelAtHead params d).1, some (queryPanelAtHead params d).2)
  | .post => ((postAtHead params d).1, some (postAtHead params d).2)
  | .bind => ((bindAtHead params d).1, some (bindAtHead params d).2)
  | .unbind => ((unbindAtHead params d).1, some (unbindAtHead params d).2)
  | .portConfig => ((portConfigAtHead params d).1, some (portConfigAtHead params d).2)
  | .queryPort => ((queryPortAtHead params d).1, some (queryPortAtHead params d).2)
  | .fill => ((fillAtHead params d).1, some (fillAtHead params d).2)
  | .copyForward => ((copyForwardAtHead params d).1, some (copyForwardAtHead params d).2)
  | .sceneReset => ((sceneResetAtHead params d).1, some (sceneResetAtHead params d).2)

/-- Whether a length is the one Table 9-4 gives, by a length field below 9 (R162, check 2). -/
def lengthFits (c : Command) (q : QueuedCommand) : Bool :=
  q.held == commandLength c && lengthField q.word0 ≤ 8

/-- What the head does when it executes: opcode, length, then the owning block (R162). -/
def headEffect (q : QueuedCommand) (d : Device) : Device × Option Reply :=
  match commandOf (opcodeField q.word0) with
  | none => (d, some (refusal .badCommand))
  | some c => if lengthFits c q then runCommand c q.params d else (d, some (refusal .badLength))

/-- The head executes, and its response is produced unless it is a PIXEL_READ that has begun (R160, R163). -/
def executeHead (q : QueuedCommand) (d : Device) : Device :=
  match headEffect q d with
  | (e, some reply) => e.respond reply
  | (e, none) => e

/-- The heads whose conditions hold execute one after another, at most `n` of them (R160). -/
def settleFor : Nat → Device → Device
  | 0, d => d
  | n + 1, d =>
    match d.control.commands with
    | [] => d
    | q :: _ => if d.headReady q then settleFor n (executeHead q d) else d

/-- In the step of an event, every head that it releases executes, until one must wait or the queue is empty (R160).
No execution adds a command, so as many as are queued suffice. -/
def Device.settle (d : Device) : Device := settleFor d.control.commands.length d

end Sys2Proof.Machine
end

