-- ==== Sys2Proof/Machine/Control.lean ====
section
/-! DEFINITION. The accesses to the control port (spec/09): CMD_WORD, RESP_READ, COMPL_READ, ACK, EVENT_WRITE,
EVENT_ENABLE_WRITE and IGNORED_WRITE. While RESET_N is low every write is ignored, every read returns 0000h (R156,
`readLocation`) and D[15:0] is not driven (R185). -/

namespace Sys2Proof.Machine

/-- A write access carries no word out on D[15:0] (R184). -/
def Device.written (d : Device) : Device := d.setData none

/-- Store a word as the next parameter of the newest command (R158). -/
def appendParam (w : Word) : List QueuedCommand → List QueuedCommand
  | [] => []
  | [q] => [{ q with params := q.params ++ [w] }]
  | q :: r :: rest => q :: appendParam w (r :: rest)

/-- The assembly record after `k` of `total` words (R157, R158). -/
def collectingAfter (total k : Nat) : Assembly := if k < total then .collecting total k else .idle

/-- The assembly record after `k` of `total` words have been discarded (R157, R158). -/
def droppingAfter (total k : Nat) : Assembly := if k < total then .dropping total k else .idle

/-- Word 0 of a command is admitted or dropped (R157, R159). -/
def Device.firstWord (d : Device) (w : Word) : Device :=
  if admissionLength w ≤ d.freeWords then
    { d with
      control := { d.control with
        assembly := collectingAfter (admissionLength w) 1
        commands := d.control.commands ++ [⟨d.control.nextSeq, w, []⟩]
        nextSeq := d.control.nextSeq + 1 } }
  else
    Device.latch { d with control := { d.control with assembly := droppingAfter (admissionLength w) 1 } }
      .cmdOverflow

/-- A word taken by the command assembly record (R157, R158). -/
def Device.takeWord (d : Device) (w : Word) : Device :=
  match d.control.assembly with
  | .idle => d.firstWord w
  | .collecting total k =>
    { d with
      control := { d.control with
        assembly := collectingAfter total (k + 1)
        commands := appendParam w d.control.commands } }
  | .dropping total k =>
    { d with control := { d.control with assembly := droppingAfter total (k + 1) } }

/-- A word written to CMD, with the heads it releases (R156 to R160). -/
def Device.writeCmd (d : Device) (w : Word) : Device :=
  if d.pins.resetN then (d.written.takeWord w).settle else d

/-- The words of a command written to CMD one after another (R157, log 1). -/
def Device.sendWords (d : Device) (words : List Word) : Device := words.foldl Device.writeCmd d

/-- A whole command written to CMD: its command word, then its parameter words (Table 11-4, log 1). -/
def Device.sendCommand (d : Device) (code low : Byte) (params : List Word) : Device :=
  d.sendWords (commandWord code low :: params)

/-- One word of the oldest response has been read: the next word is due, or the response leaves the queue (R165). -/
def Device.popResponseWord (d : Device) : Device :=
  match d.control.responses with
  | [] => d
  | r :: rest =>
    if d.control.responseRead + 1 < (responseWords r).length then
      { d with control := { d.control with responseRead := d.control.responseRead + 1 } }
    else { d with control := { d.control with responses := rest, responseRead := 0 } }

/-- A read of RESP (R165). While RESET_N is low D[15:0] stays high-impedance (R185, log 11). -/
def Device.readResp (d : Device) : Device :=
  if d.pins.resetN then (d.setData (some (d.readLocation .resp))).popResponseWord.settle else d

/-- One word of the oldest record has been read: the next word is due, or the record leaves the queue and its room is
offered (R166, R167). -/
def Device.popRecordWord (d : Device) : Device :=
  match d.control.completions with
  | [] => d
  | r :: rest =>
    if d.control.completionRead + 1 < (recordWords r).length then
      { d with control := { d.control with completionRead := d.control.completionRead + 1 } }
    else Device.offerRoom { d with control := { d.control with completions := rest, completionRead := 0 } }

/-- A read of COMPL (R166). While RESET_N is low D[15:0] stays high-impedance (R185, log 11). -/
def Device.readCompl (d : Device) : Device :=
  if d.pins.resetN then (d.setData (some (d.readLocation .compl))).popRecordWord.settle else d

/-! ## The rows -/

/-- CMD_WORD (R157). -/
def execCmdWord (w : Word) (s : State) : Host.Outcome State Fault Refusal :=
  .next (s.withDevice (s.dev.writeCmd w))

/-- RESP_READ (R165): the word returned stands on D[15:0]. -/
def execRespRead (s : State) : Host.Outcome State Fault Refusal := .next (s.withDevice s.dev.readResp)

/-- COMPL_READ (R166): the word returned stands on D[15:0]. -/
def execComplRead (s : State) : Host.Outcome State Fault Refusal := .next (s.withDevice s.dev.readCompl)

/-- ACK (R103, R104, R169): taken by the surface table whatever the command queue holds. -/
def execAck (value : Word) (s : State) : Host.Outcome State Fault Refusal :=
  .next (s.withDevice (if s.dev.pins.resetN then (s.dev.written.acknowledge value).settle else s.dev))

/-- EVENT_WRITE (R175). -/
def execEventWrite (w : Word) (s : State) : Host.Outcome State Fault Refusal :=
  .next (s.withDevice (if s.dev.pins.resetN then s.dev.written.clearEvents w else s.dev))

/-- EVENT_ENABLE_WRITE (R177). -/
def execEventEnableWrite (w : Word) (s : State) : Host.Outcome State Fault Refusal :=
  .next (s.withDevice (if s.dev.pins.resetN then s.dev.written.setEnables w else s.dev))

/-- IGNORED_WRITE (R156): no location takes the word and no event is latched. -/
def execIgnoredWrite (_location : ReadOnlyLocation) (_w : Word) (s : State) : Host.Outcome State Fault Refusal :=
  .next (s.withDevice (if s.dev.pins.resetN then s.dev.written else s.dev))

end Sys2Proof.Machine
end

