-- ==== Sys2Proof/Machine/Commands.lean ====
section
/-! DEFINITION. The rows that are commands (spec/09 Table 9-4) and UNKNOWN_OPCODE. Each is the whole command written to
CMD (log 1): it is admitted or dropped (R157), and executes when it is the head and its conditions hold (R160), by the
definition `…AtHead` of its block. -/

namespace Sys2Proof.Machine

/-- OPEN (R8 to R12): `openAtHead` when it executes. -/
def execOpen (low : Byte) (params : List Word) (s : State) : Host.Outcome State Fault Refusal :=
  .next (s.withDevice (s.dev.sendCommand (commandCode .openSurface) low params))

/-- CLOSE (R13 to R16, R152): `closeAtHead` when it executes. -/
def execClose (low : Byte) (params : List Word) (s : State) : Host.Outcome State Fault Refusal :=
  .next (s.withDevice (s.dev.sendCommand (commandCode .closeSurface) low params))

/-- QUERY_SURFACE (R22): `querySurfaceAtHead` when it executes. -/
def execQuerySurface (low : Byte) (params : List Word) (s : State) : Host.Outcome State Fault Refusal :=
  .next (s.withDevice (s.dev.sendCommand (commandCode .querySurface) low params))

/-- QUERY_POOL (R39): `queryPoolAtHead` when it executes. -/
def execQueryPool (low : Byte) (params : List Word) (s : State) : Host.Outcome State Fault Refusal :=
  .next (s.withDevice (s.dev.sendCommand (commandCode .queryPool) low params))

/-- PIXEL_READ (R37, R38): `pixelReadAtHead` when it executes. -/
def execPixelRead (low : Byte) (params : List Word) (s : State) : Host.Outcome State Fault Refusal :=
  .next (s.withDevice (s.dev.sendCommand (commandCode .pixelRead) low params))

/-- SET_POSITION (R44): `setPositionAtHead` when it executes. -/
def execSetPosition (low : Byte) (params : List Word) (s : State) : Host.Outcome State Fault Refusal :=
  .next (s.withDevice (s.dev.sendCommand (commandCode .setPosition) low params))

/-- SET_LOOK (R45): `setLookAtHead` when it executes. -/
def execSetLook (low : Byte) (params : List Word) (s : State) : Host.Outcome State Fault Refusal :=
  .next (s.withDevice (s.dev.sendCommand (commandCode .setLook) low params))

/-- SET_BACKGROUND (R46): `setBackgroundAtHead` when it executes. -/
def execSetBackground (low : Byte) (params : List Word) (s : State) : Host.Outcome State Fault Refusal :=
  .next (s.withDevice (s.dev.sendCommand (commandCode .setBackground) low params))

/-- COMMIT (R48, R49): `commitAtHead` when it executes. -/
def execCommit (low : Byte) (params : List Word) (s : State) : Host.Outcome State Fault Refusal :=
  .next (s.withDevice (s.dev.sendCommand (commandCode .commit) low params))

/-- DISCARD (R57, R58): `discardAtHead` when it executes. -/
def execDiscard (low : Byte) (params : List Word) (s : State) : Host.Outcome State Fault Refusal :=
  .next (s.withDevice (s.dev.sendCommand (commandCode .discard) low params))

/-- QUERY_STAGING (R59): `queryStagingAtHead` when it executes. -/
def execQueryStaging (low : Byte) (params : List Word) (s : State) : Host.Outcome State Fault Refusal :=
  .next (s.withDevice (s.dev.sendCommand (commandCode .queryStaging) low params))

/-- PLACE (R64, R65): `placeAtHead` when it executes. -/
def execPlace (low : Byte) (params : List Word) (s : State) : Host.Outcome State Fault Refusal :=
  .next (s.withDevice (s.dev.sendCommand (commandCode .place) low params))

/-- UNPLACE (R66): `unplaceAtHead` when it executes. -/
def execUnplace (low : Byte) (params : List Word) (s : State) : Host.Outcome State Fault Refusal :=
  .next (s.withDevice (s.dev.sendCommand (commandCode .unplace) low params))

/-- QUERY_ORDER (R67): `queryOrderAtHead` when it executes. -/
def execQueryOrder (low : Byte) (params : List Word) (s : State) : Host.Outcome State Fault Refusal :=
  .next (s.withDevice (s.dev.sendCommand (commandCode .queryOrder) low params))

/-- PANEL_SETUP (R78): `panelSetupAtHead` when it executes. -/
def execPanelSetup (low : Byte) (params : List Word) (s : State) : Host.Outcome State Fault Refusal :=
  .next (s.withDevice (s.dev.sendCommand (commandCode .panelSetup) low params))

/-- PANEL_START (R81, R82): `panelStartAtHead` when it executes. -/
def execPanelStart (low : Byte) (params : List Word) (s : State) : Host.Outcome State Fault Refusal :=
  .next (s.withDevice (s.dev.sendCommand (commandCode .panelStart) low params))

/-- PANEL_STOP (R83): `panelStopAtHead` when it executes. -/
def execPanelStop (low : Byte) (params : List Word) (s : State) : Host.Outcome State Fault Refusal :=
  .next (s.withDevice (s.dev.sendCommand (commandCode .panelStop) low params))

/-- QUERY_PANEL (R90): `queryPanelAtHead` when it executes. -/
def execQueryPanel (low : Byte) (params : List Word) (s : State) : Host.Outcome State Fault Refusal :=
  .next (s.withDevice (s.dev.sendCommand (commandCode .queryPanel) low params))

/-- POST (R96, R97): `postAtHead` when it executes. -/
def execPost (low : Byte) (params : List Word) (s : State) : Host.Outcome State Fault Refusal :=
  .next (s.withDevice (s.dev.sendCommand (commandCode .post) low params))

/-- BIND (R132): `bindAtHead` when it executes. -/
def execBind (low : Byte) (params : List Word) (s : State) : Host.Outcome State Fault Refusal :=
  .next (s.withDevice (s.dev.sendCommand (commandCode .bind) low params))

/-- UNBIND (R133): `unbindAtHead` when it executes. -/
def execUnbind (low : Byte) (params : List Word) (s : State) : Host.Outcome State Fault Refusal :=
  .next (s.withDevice (s.dev.sendCommand (commandCode .unbind) low params))

/-- PORT_CONFIG (R136): `portConfigAtHead` when it executes. -/
def execPortConfig (low : Byte) (params : List Word) (s : State) : Host.Outcome State Fault Refusal :=
  .next (s.withDevice (s.dev.sendCommand (commandCode .portConfig) low params))

/-- QUERY_PORT (R137): `queryPortAtHead` when it executes. -/
def execQueryPort (low : Byte) (params : List Word) (s : State) : Host.Outcome State Fault Refusal :=
  .next (s.withDevice (s.dev.sendCommand (commandCode .queryPort) low params))

/-- FILL (R144, R146): `fillAtHead` when it executes. -/
def execFill (low : Byte) (params : List Word) (s : State) : Host.Outcome State Fault Refusal :=
  .next (s.withDevice (s.dev.sendCommand (commandCode .fill) low params))

/-- COPY_FORWARD (R145, R146): `copyForwardAtHead` when it executes. -/
def execCopyForward (low : Byte) (params : List Word) (s : State) : Host.Outcome State Fault Refusal :=
  .next (s.withDevice (s.dev.sendCommand (commandCode .copyForward) low params))

/-- SCENE_RESET (R170): `sceneResetAtHead` when it executes. -/
def execSceneReset (low : Byte) (params : List Word) (s : State) : Host.Outcome State Fault Refusal :=
  .next (s.withDevice (s.dev.sendCommand (commandCode .sceneReset) low params))

/-- UNKNOWN_OPCODE (R162): refused with BAD_COMMAND when it executes. -/
def execUnknownOpcode (opcode low : Byte) (params : List Word) (s : State) : Host.Outcome State Fault Refusal :=
  .next (s.withDevice (s.dev.sendCommand opcode low params))

end Sys2Proof.Machine
end

