-- ==== Sys2Proof/Machine/FrameStore.lean ====
section
/-! DEFINITION. The accesses of the block engine and of PIXEL_READ as they are granted and complete (spec/02 R33 to R38,
spec/08 R149, R150). -/

namespace Sys2Proof.Machine

/-- A granted PIXEL_READ completes (R36, R38): the command at the head is answered with the pixel and the buffer. -/
def Device.completePixelRead (d : Device) : Device :=
  match d.pixelRead with
  | none => d
  | some r =>
    ({ d with pixelRead := none, rotation := .pixelRead }).respond
      (okReply [d.loadPixel r.pos, wordOf (bufferCode r.buffer)])

/-- The block engine's request is replaced. -/
def Device.setRequest (d : Device) (r : Option EngineRequest) : Device :=
  { d with engine := { d.engine with request := r } }

/-- A granted source read completes (R149): the write of the same position in the target buffer is raised, carrying the
pixel read. -/
def Device.completeJobRead (d : Device) : Device :=
  match d.engine.request, d.runningJob with
  | some (.read p), some j =>
    (d.grantTo .blockEngine).setRequest (some (.write ⟨d.jobPos j j.target, d.loadPixel p⟩))
  | _, _ => d

/-- The running job's progress and state change. -/
def Device.updateRunning (d : Device) (change : Job → Job) : Device :=
  { d with engine := { d.engine with jobs := updateFirst Job.isRunning change d.engine.jobs } }

/-- The number of pixels of a job's rectangle. -/
def Rect.area (r : Rect) : Nat := r.width * r.height

/-- The running job has written its last pixel (R150): FINISHED, the next job starts, the JOB_END record is offered. -/
def Device.finishJob (d : Device) (id : Byte) : Device :=
  (((d.updateRunning fun j => { j with state := .finished }).setRequest none).startJob).offerJobEnd id

/-- A granted write of the running job completes (R149): progress advances by one, and the job finishes or raises its
next request. -/
def Device.completeJobWrite (d : Device) : Device :=
  match d.engine.request, d.runningJob with
  | some (.write r), some j =>
    let written := ((d.storePixel r).grantTo .blockEngine).updateRunning fun k =>
      { k with progress := k.progress + 1 }
    if j.progress + 1 = j.rect.area then written.finishJob j.id
    else written.setRequest (some (written.jobRequest { j with progress := j.progress + 1 }))
  | _, _ => d

/-- Whether the block engine's request is a write. -/
def Device.engineWrites (d : Device) : Bool :=
  match d.engine.request with
  | some (.write _) => true
  | some (.read _) => false
  | none => false

/-- PIXEL_READ_COMPLETE (R34, R38): occurs when the arbiter grants PIXEL_READ; the heads behind the command follow
(R160). -/
def execPixelReadComplete (s : State) : Host.Outcome State Fault Refusal :=
  .next (s.withDevice
    (if s.dev.grants (.rotating .pixelRead) then s.dev.completePixelRead.settle else s.dev))

/-- JOB_READ_COMPLETE (R34, R149): occurs when the arbiter grants the block engine's read. -/
def execJobReadComplete (s : State) : Host.Outcome State Fault Refusal :=
  .next (s.withDevice (if s.dev.grants (.rotating .blockEngine) then s.dev.completeJobRead else s.dev))

/-- JOB_WRITE_COMPLETE (R34, R149, R150): occurs when the arbiter grants the block engine's write; the heads that a JOB_END
record releases execute (R151, R160). -/
def execJobWriteComplete (s : State) : Host.Outcome State Fault Refusal :=
  .next (s.withDevice
    (if s.dev.grants (.rotating .blockEngine) && s.dev.engineWrites then s.dev.completeJobWrite.settle else s.dev))

end Sys2Proof.Machine
end

