-- ==== Sys2Proof/Machine/Resets.lean ====
section
/-! DEFINITION. The device reset input RESET_N (R171 and each block's part of it). -/

namespace Sys2Proof.Machine

/-- The device while RESET_N is low (R171; R23, R28, R32, R34, R60, R75, R91, R113, R138, R154, R179): every block at its
reset values. The frame store, the levels of the SnPRST_N inputs and the time base are not reset. -/
def Device.inReset (d : Device) : Device where
  pins := ⟨false, none⟩
  control := ControlPort.reset
  pixelRead := none
  surfaces := Vector.replicate 16 (Surface.freed 0)
  freeSlabs := allSlabs
  store := d.store
  rotation := .pixelRead
  staging := StagingSet.reset
  layers := LayerOrder.reset
  scan := ScanEngine.reset
  ports := Vector.ofFn fun n => Port.reset d.ports[n].held
  engine := BlockEngine.reset
  events := EventUnit.reset
  timeBase := d.timeBase
  freeIndex := d.freeIndex

/-- DEVICE_RESET (R171): RESET_N falls. Every request is withdrawn, after the one write whose grant may have been taken
first (R32, R35, log 3). -/
def execDeviceReset (s : State) : Host.Outcome State Fault Refusal :=
  .next (s.withDevice (if s.dev.pins.resetN then (s.dev.grantFirst fun _ => true).inReset else s.dev))

/-- DEVICE_RESET_RELEASE (R138, R171): RESET_N rises; nothing else changes, and each port not held is ready in IDLE
(Table 7-2). -/
def execDeviceResetRelease (s : State) : Host.Outcome State Fault Refusal :=
  .next (s.withDevice { s.dev with pins := { s.dev.pins with resetN := true } })

end Sys2Proof.Machine
end

