-- ==== Sys2Proof/Machine/Scan.lean ====
section
/-! DEFINITION. Composition of the panel pixels (spec/04 R68 to R72), the pixel periods, the levels of the panel output and
the frame boundary (spec/05). -/

namespace Sys2Proof.Machine

/-! ## Composition -/

/-- One channel of a blend (R71). -/
def blendChannel (opacity top below : Nat) : Nat := (opacity * top + (16 - opacity) * below) / 16

/-- The blend of a surface pixel over a below value (R71), red in 15:11, green in 10:5, blue in 4:0 (Table 11-1). -/
def blend (opacity : Nat) (top below : Pixel) : Pixel :=
  bitsAt (blendChannel opacity (fieldOf top 11 5) (fieldOf below 11 5)) 11
    ||| bitsAt (blendChannel opacity (fieldOf top 5 6) (fieldOf below 5 6)) 5
    ||| bitsAt (blendChannel opacity (fieldOf top 0 5) (fieldOf below 0 5)) 0

/-- Whether a surface covers a panel pixel (R70). -/
def Surface.covers (s : Surface) (px py : Nat) : Bool :=
  s.committed.x ≤ px && px < s.committed.x + s.width && s.committed.y ≤ py && py < s.committed.y + s.height

/-- The read a surface of the committed order needs for a panel pixel, if any (R70, R72). -/
def Device.layerRead (d : Device) (px py : Nat) (h : Handle) : Option ScanRead :=
  let s := d.surface h.slot
  if s.covers px py ∧ s.committed.opacity ≠ 0 then
    some ⟨s.pixelAt s.front (px - s.committed.x) (py - s.committed.y), s.committed.opacity⟩
  else none

/-- The reads of a panel pixel, from place 0 upward (R69, R72). -/
def Device.panelReads (d : Device) (px py : Nat) : List ScanRead := d.layers.order.filterMap (d.layerRead px py)

/-- The panel pixel being composed: what its running value becomes when its reads have been blended over it, in order from
place 0 upward (R69, R71). -/
def Device.composed (d : Device) : Pixel :=
  d.scan.reads.foldl (fun below r => blend r.opacity (d.loadPixel r.pos) below) d.scan.composing

/-! ## Frame shape (R79, R82) -/

/-- The pixel periods of a line. -/
def PanelSetup.lineLength (p : PanelSetup) : Nat := p.activeWidth + p.hBlank

/-- The lines of a frame. -/
def PanelSetup.frameLines (p : PanelSetup) : Nat := p.activeHeight + p.vBlank

/-- The pixel period that follows one: through the lead-in to line 0, through the lines of a frame and on to the next
frame. -/
def PanelSetup.next (p : PanelSetup) : ScanPos → ScanPos
  | .leadIn line k =>
    if k + 1 < p.lineLength then .leadIn line (k + 1)
    else if line + 1 < p.vBlank then .leadIn (line + 1) 0
    else .frame 0 0
  | .frame line k =>
    if k + 1 < p.lineLength then .frame line (k + 1)
    else if line + 1 < p.frameLines then .frame (line + 1) 0
    else .frame 0 0

/-- The last active period of the last active line, at whose end the frame boundary falls (R79, R84). -/
def PanelSetup.boundary (p : PanelSetup) : ScanPos := .frame (p.activeHeight - 1) (p.activeWidth - 1)

/-- The composition of the pixel of a position begins: an active one starts from the committed background with the reads
it needs, a blank one needs none (R69, R72). The reads are raised one at a time, the first now and the next as each
completes (R33); that no rotating client is granted between them is the model's choice (log 24). -/
def Device.compose (d : Device) (pos : ScanPos) : Device :=
  match pos with
  | .frame line k =>
    if d.scan.setup.activeAt pos then
      { d with scan := { d.scan with composing := d.layers.background, reads := d.panelReads k line } }
    else { d with scan := { d.scan with composing := 0, reads := [] } }
  | .leadIn _ _ => { d with scan := { d.scan with composing := 0, reads := [] } }

/-- The composition of the pixel after a position begins (R72); before the active region none does (R73, R82, log 7). -/
def Device.composeAfter (d : Device) (pos : ScanPos) : Device :=
  if d.scan.setup.next pos = .frame 0 0 then { d with scan := { d.scan with composing := 0, reads := [] } }
  else d.compose (d.scan.setup.next pos)

/-- Panel pixel (0, 0) has been composed in its own period: it is the pixel driven in it, and the composition of the next
pixel begins (R73, R82, log 7). -/
def Device.driveFirst (d : Device) : Device :=
  ({ d with scan := { d.scan with driven := d.scan.composing, opening := false } }).composeAfter (.frame 0 0)

/-- The active region begins: no read is raised before it (R34, R73, R82), so panel pixel (0, 0) is composed in its own
period, all of which carries it (R80, `panelLevels`, log 7). -/
def Device.openRegion (d : Device) : Device :=
  let e := ({ d with scan := { d.scan with position := some (.frame 0 0), driven := 0 } }).compose (.frame 0 0)
  if e.scan.reads.isEmpty then e.driveFirst else { e with scan := { e.scan with opening := true } }

/-- The output goes on to a pixel period: the pixel just composed is driven, and the composition of the next one begins
(R72, R79); line 0 begins with the composition of its own first pixel. When within the period each read is raised is the
model's choice (log 24). -/
def Device.enterPeriod (d : Device) (pos : ScanPos) : Device :=
  if pos = .frame 0 0 then d.openRegion
  else
    ({ d with
        scan := { d.scan with
          position := some pos
          driven := if d.scan.setup.activeAt pos then d.scan.composing else 0 } }).composeAfter pos

/-- Whether the scan engine goes on to the next pixel period: it is driving one, every read of the next pixel has
completed (R72), and the period ends otherwise than in a frame boundary. -/
def Device.periodEnds (d : Device) : Bool :=
  d.scan.position.isSome && d.scan.position != some d.scan.setup.boundary && d.scan.reads.isEmpty

/-- The next pixel period. -/
def Device.pixelPeriod (d : Device) : Device :=
  match d.scan.position with
  | none => d
  | some p => d.enterPeriod (d.scan.setup.next p)

/-- A scan-engine read is granted and completes (R34, R69, R71): its pixel is blended over the running value, and the
last read of panel pixel (0, 0) drives it. The rotation pointer stays. -/
def Device.completeScanRead (d : Device) : Device :=
  match d.scan.reads with
  | [] => d
  | r :: rest =>
    let e : Device := { d with
      scan := { d.scan with
        composing := blend r.opacity (d.loadPixel r.pos) d.scan.composing
        reads := rest } }
    if d.scan.opening && rest.isEmpty then e.driveFirst else e

/-! ## Panel output (R80) -/

/-- The levels of the panel output (R80): a function of the scan engine (log 12). While panel pixel (0, 0) is composed in its
own period, its level is the pixel that its reads compose: the scan engine is granted before every other client, so no
write comes between them (R34, log 7). -/
def Device.panelLevels (d : Device) : PanelLevels :=
  match d.scan.position with
  | none => ⟨false, false, 0, syncLevel d.scan.setup.hPolarity false, syncLevel d.scan.setup.vPolarity false⟩
  | some pos =>
    ⟨true, d.scan.setup.activeAt pos,
      if d.scan.setup.activeAt pos then if d.scan.opening then d.composed else d.scan.driven else 0,
      syncLevel d.scan.setup.hPolarity (d.scan.setup.hSyncAt pos),
      syncLevel d.scan.setup.vPolarity (d.scan.setup.vSyncAt pos)⟩

/-! ## The frame boundary (R84, R85) -/

/-- Steps 1 to 3 of R84: frame number, FRAME, apply point with the idle flag clear. -/
def Device.boundaryWork (d : Device) : Device :=
  (({ d with scan := { d.scan with frameNumber := d.scan.frameNumber + 1 } }).latch .frame).applyPoint false

/-- The draining boundary ends the scan (R85). -/
def Device.endScan (d : Device) : Device :=
  ({ d with
      scan := { d.scan with
        state := .stopped, position := none, driven := 0, composing := 0, reads := [],
        opening := false } }).latch
    .panelStopped

/-- The frame boundary (R84, R85): in RUNNING the output goes on with the first blank period of line AH - 1; in DRAINING
it stops. -/
def Device.frameBoundary (d : Device) : Device :=
  let e := d.boundaryWork
  if d.scan.state = .draining then e.endScan
  else e.enterPeriod (.frame (d.scan.setup.activeHeight - 1) d.scan.setup.activeWidth)

/-- FRAME_BOUNDARY (R84): occurs at the end of the last active period of line AH - 1; the heads that an apply releases
execute (R160, log 18, log 22). -/
def execFrameBoundary (s : State) : Host.Outcome State Fault Refusal :=
  .next (s.withDevice
    (if s.dev.scan.position = some s.dev.scan.setup.boundary then s.dev.frameBoundary.settle else s.dev))

/-- PIXEL_PERIOD (R72, R79). -/
def execPixelPeriod (s : State) : Host.Outcome State Fault Refusal :=
  .next (s.withDevice (if s.dev.periodEnds then s.dev.pixelPeriod else s.dev))

/-- SCAN_READ_COMPLETE (R34, R71, R72): occurs when the scan engine has a read, which the arbiter grants before any
other. -/
def execScanReadComplete (s : State) : Host.Outcome State Fault Refusal :=
  .next (s.withDevice (if s.dev.grants .scan then s.dev.completeScanRead else s.dev))

end Sys2Proof.Machine
end

