-- ==== Sys2Proof/Machine/Streams.lean ====
section
/-! DEFINITION. The words of the stream ports, their pixel writes, their idle intervals and their reset inputs (spec/07),
and what the microsecond time base does to them. -/

namespace Sys2Proof.Machine

/-! ## The header (R118 to R120) -/

/-- The five words of a complete header (Table 7-4). -/
structure Header where
  flags : Word
  u0 : Nat
  v0 : Nat
  width : Nat
  height : Nat
  deriving DecidableEq, Repr

/-- The POST_ON_END flag of a header (spec/11, the flags word: bit 0). -/
def Header.postOnEnd (h : Header) : Bool := h.flags.getLsbD 0

/-- The ranges of R119, check 2: bits 15:1 of the flags word 0, the fields of Table 7-4, POST_ON_END clear for a SINGLE
surface. -/
def Header.inRange (h : Header) (buffering : Buffering) : Bool :=
  (h.flags &&& 0xFFFE) == 0 && h.u0 ≤ 1023 && h.v0 ≤ 1023 && 1 ≤ h.width && h.width ≤ 1024 && 1 ≤ h.height
    && h.height ≤ 1024 && !(h.postOnEnd && buffering == .single)

/-- The rectangle of R119, check 3: inside the source picture. -/
def Header.inside (h : Header) (s : Surface) : Bool :=
  h.u0 + h.width ≤ s.sourceWidth && h.v0 + h.height ≤ s.sourceHeight

/-- The burst record of an accepted header (R120). -/
def Header.burst (h : Header) (target : Handle) : Burst where
  u0 := h.u0
  v0 := h.v0
  width := h.width
  height := h.height
  postOnEnd := h.postOnEnd
  target := target
  buffer := none
  remaining := h.width * h.height

/-- A header is refused: the error, an emptied header buffer, no idle interval, DISCARD (R117, R119). -/
def Device.refuseHeader (d : Device) (n : PortNum) (cause : PortError) : Device :=
  let e := d.recordError n cause
  e.setPort n { e.port n with state := .discarding, header := [], interval := none }

/-- A header is accepted: burst record, STALLED, and the examination of the target in the same step (R120, R121). -/
def Device.acceptHeader (d : Device) (n : PortNum) (h : Header) (target : Handle) : Device :=
  (d.setPort n { d.port n with
    state := .stalled
    header := []
    interval := none
    burst := some (h.burst target) }).examinePort n

/-- The checks of R119 on a complete header. -/
def Device.checkHeader (d : Device) (n : PortNum) (h : Header) : Device :=
  match (d.port n).binding with
  | none => d.refuseHeader n .notBound
  | some target =>
    if h.inRange (d.surface target.slot).buffering then
      if h.inside (d.surface target.slot) then d.acceptHeader n h target else d.refuseHeader n .badRect
    else d.refuseHeader n .badHeader

/-- The header buffer holds these words (R118): the fifth completes the header; before it the port is in HEADER and an
idle interval begins (R127). -/
def Device.collect (d : Device) (n : PortNum) (words : List Word) : Device :=
  match words with
  | [flags, u0, v0, width, height] =>
    d.checkHeader n ⟨flags, u0.toNat, v0.toNat, width.toNat, height.toNat⟩
  | _ => d.setPort n { d.port n with state := .header, header := words, interval := d.intervalNow (d.port n) }

/-! ## Pixels (R123 to R125) -/

/-- The buffer pixel of a source pixel (R123, Table 7-5). -/
def Surface.mapPixel (s : Surface) (u v : Nat) : Nat × Nat :=
  match s.orientation with
  | .r0 => (u, v)
  | .r90 => (s.sourceHeight - 1 - v, u)
  | .r180 => (s.sourceWidth - 1 - u, s.sourceHeight - 1 - v)
  | .r270 => (v, s.sourceWidth - 1 - u)
  | .m0 => (s.sourceWidth - 1 - u, v)
  | .m90 => (s.sourceHeight - 1 - v, s.sourceWidth - 1 - u)
  | .m180 => (u, s.sourceHeight - 1 - v)
  | .m270 => (v, u)

/-- The source pixel that the next pixel word of a burst is (R124). -/
def Burst.nextSource (b : Burst) : Nat × Nat :=
  let k := b.width * b.height - b.remaining
  (b.u0 + k % b.width, b.v0 + k / b.width)

/-- The position that the next pixel word of a burst is written to (R123, R124). A burst in PIXELS has its buffer fixed
(R121); the fallback is reached by no run (log 16). -/
def Device.burstPos (d : Device) (b : Burst) : PixelPos :=
  let s := d.surface b.target.slot
  let xy := s.mapPixel b.nextSource.1 b.nextSource.2
  s.pixelAt (b.buffer.getD s.writeBuffer) xy.1 xy.2

/-- A pixel word raises its write request, and an idle interval begins (R124, R127). -/
def Device.raiseWrite (d : Device) (n : PortNum) (w : Word) : Device :=
  match (d.port n).burst with
  | none => d
  | some b =>
    d.setPort n { d.port n with
      writeRequest := some ⟨d.burstPos b, w⟩
      interval := d.intervalNow (d.port n) }

/-- A burst ends complete (R125): counted, its post delivered, its record discarded, IDLE. -/
def Device.endBurst (d : Device) (n : PortNum) (b : Burst) : Device :=
  let counted := d.setPort n { d.port n with burstsCompleted := (d.port n).burstsCompleted + 1 }
  let posted := if b.postOnEnd then counted.deliverPost b.target.slot else counted
  posted.setPort n { posted.port n with state := .idle, burst := none, interval := none }

/-- A port's granted write completes (R33, R124): the pixel stands, write pending is cleared, one pixel fewer remains,
and the last one ends the burst. -/
def Device.completeWrite (d : Device) (n : PortNum) : Device :=
  match (d.port n).writeRequest, (d.port n).burst with
  | some r, some b =>
    let written := ((d.storePixel r).grantTo (.port n)).setPort n { d.port n with
      writeRequest := none
      burst := some { b with remaining := b.remaining - 1 } }
    if b.remaining ≤ 1 then written.endBurst n b else written
  | _, _ => d

/-! ## Words taken (R115 to R117) -/

/-- A marked word taken (R116): it begins or extends a header; in PIXELS it first ends the burst short (R129). -/
def Device.takeMarked (d : Device) (n : PortNum) (w : Word) : Device :=
  match (d.port n).state with
  | .idle => d.collect n [w]
  | .discarding => d.collect n [w]
  | .header => d.collect n ((d.port n).header ++ [w])
  | .pixels =>
    let e := d.recordError n .shortBurst
    (e.setPort n { e.port n with burst := none }).collect n [w]
  | .stalled => d

/-- An unmarked word taken (R117): a pixel word in PIXELS, an error in IDLE and HEADER, dropped in DISCARD. -/
def Device.takeUnmarked (d : Device) (n : PortNum) (w : Word) : Device :=
  match (d.port n).state with
  | .idle => d.refuseHeader n .overrun
  | .header => d.refuseHeader n .badHeader
  | .pixels => d.raiseWrite n w
  | .discarding => d
  | .stalled => d

/-! ## Idle intervals (R127, R128) -/

/-- Whether a port's interval may expire now: its setting is not 0 and that many microseconds have passed (R128). -/
def Device.mayExpire (d : Device) (n : PortNum) : Bool :=
  match (d.port n).interval with
  | none => false
  | some i => i.setting != 0 && i.start + i.setting.toNat ≤ d.timeBase

/-- Whether a port's interval must expire before the time base goes on: an expiry is taken no later than one microsecond
after the setting (R128, log 6). -/
def Device.mustExpire (d : Device) (n : PortNum) : Bool :=
  match (d.port n).interval with
  | none => false
  | some i => i.setting != 0 && i.start + i.setting.toNat + 1 ≤ d.timeBase

/-- The time base goes on by one microsecond; first, each expiry that can wait no longer is taken, in port order (log 6,
log 23). -/
def Device.tick (d : Device) : Device :=
  let e := allPorts.foldl (fun e n => if e.mustExpire n then e.endEarly n .timeout else e) d
  { e with timeBase := e.timeBase + 1 }

/-! ## The rows -/

/-- MARKED_WORD (R115, R116): taken when SnREADY is high. -/
def execMarkedWord (n : PortNum) (w : Word) (s : State) : Host.Outcome State Fault Refusal :=
  .next (s.withDevice (if s.dev.ready n then s.dev.takeMarked n w else s.dev))

/-- UNMARKED_WORD (R115, R117): taken when SnREADY is high. -/
def execUnmarkedWord (n : PortNum) (w : Word) (s : State) : Host.Outcome State Fault Refusal :=
  .next (s.withDevice (if s.dev.ready n then s.dev.takeUnmarked n w else s.dev))

/-- PIXEL_WRITE_COMPLETE (R34, R124, R125): occurs when the arbiter grants the port; the heads that a post at the burst end
releases execute (R160). -/
def execPixelWriteComplete (n : PortNum) (s : State) : Host.Outcome State Fault Refusal :=
  .next (s.withDevice
    (if s.dev.grants (.rotating (.port n)) then (s.dev.completeWrite n).settle else s.dev))

/-- IDLE_TIMEOUT (R128): occurs when the port's interval may expire. -/
def execIdleTimeout (n : PortNum) (s : State) : Host.Outcome State Fault Refusal :=
  .next (s.withDevice (if s.dev.mayExpire n then s.dev.endEarly n .timeout else s.dev))

/-- PORT_RESET (R135): SnPRST_N falls; a header or burst in progress ends with PORT_RESET, and the port is held. -/
def execPortReset (n : PortNum) (s : State) : Host.Outcome State Fault Refusal :=
  let d := if (s.dev.port n).state.inProgress then s.dev.endEarly n .portReset else s.dev
  .next (s.withDevice (if (s.dev.port n).held then s.dev
    else d.setPort n { d.port n with held := true, interval := none }))

/-- PORT_RESET_RELEASE (R135): SnPRST_N rises, and the port enters IDLE. -/
def execPortResetRelease (n : PortNum) (s : State) : Host.Outcome State Fault Refusal :=
  .next (s.withDevice (if (s.dev.port n).held then
      s.dev.setPort n { s.dev.port n with held := false, state := .idle }
    else s.dev))

end Sys2Proof.Machine
end

