-- ==== Sys2Proof/Machine/Dispatch.lean ====
section
/-! DEFINITION. What each row of spec/opcode_table.json does to the state, but for the queue of waiting commands. -/

namespace Sys2Proof.Machine

def exec (i : Instr) (s : State) : Host.Outcome State Fault Refusal :=
  match i with
  | .openSurface low params => Sys2Proof.Machine.execOpen low params s
  | .closeSurface low params => Sys2Proof.Machine.execClose low params s
  | .querySurface low params => Sys2Proof.Machine.execQuerySurface low params s
  | .queryPool low params => Sys2Proof.Machine.execQueryPool low params s
  | .pixelRead low params => Sys2Proof.Machine.execPixelRead low params s
  | .pixelReadComplete => Sys2Proof.Machine.execPixelReadComplete s
  | .setPosition low params => Sys2Proof.Machine.execSetPosition low params s
  | .setLook low params => Sys2Proof.Machine.execSetLook low params s
  | .setBackground low params => Sys2Proof.Machine.execSetBackground low params s
  | .commit low params => Sys2Proof.Machine.execCommit low params s
  | .discard low params => Sys2Proof.Machine.execDiscard low params s
  | .queryStaging low params => Sys2Proof.Machine.execQueryStaging low params s
  | .place low params => Sys2Proof.Machine.execPlace low params s
  | .unplace low params => Sys2Proof.Machine.execUnplace low params s
  | .queryOrder low params => Sys2Proof.Machine.execQueryOrder low params s
  | .panelSetup low params => Sys2Proof.Machine.execPanelSetup low params s
  | .panelStart low params => Sys2Proof.Machine.execPanelStart low params s
  | .panelStop low params => Sys2Proof.Machine.execPanelStop low params s
  | .queryPanel low params => Sys2Proof.Machine.execQueryPanel low params s
  | .post low params => Sys2Proof.Machine.execPost low params s
  | .bind low params => Sys2Proof.Machine.execBind low params s
  | .unbind low params => Sys2Proof.Machine.execUnbind low params s
  | .portConfig low params => Sys2Proof.Machine.execPortConfig low params s
  | .queryPort low params => Sys2Proof.Machine.execQueryPort low params s
  | .fill low params => Sys2Proof.Machine.execFill low params s
  | .copyForward low params => Sys2Proof.Machine.execCopyForward low params s
  | .sceneReset low params => Sys2Proof.Machine.execSceneReset low params s
  | .cmdWord w => Sys2Proof.Machine.execCmdWord w s
  | .respRead => Sys2Proof.Machine.execRespRead s
  | .complRead => Sys2Proof.Machine.execComplRead s
  | .ack value => Sys2Proof.Machine.execAck value s
  | .eventWrite w => Sys2Proof.Machine.execEventWrite w s
  | .eventEnableWrite w => Sys2Proof.Machine.execEventEnableWrite w s
  | .ignoredWrite location w => Sys2Proof.Machine.execIgnoredWrite location w s
  | .deviceReset => Sys2Proof.Machine.execDeviceReset s
  | .deviceResetRelease => Sys2Proof.Machine.execDeviceResetRelease s
  | .portReset n => Sys2Proof.Machine.execPortReset n s
  | .portResetRelease n => Sys2Proof.Machine.execPortResetRelease n s
  | .markedWord n w => Sys2Proof.Machine.execMarkedWord n w s
  | .unmarkedWord n w => Sys2Proof.Machine.execUnmarkedWord n w s
  | .pixelWriteComplete n => Sys2Proof.Machine.execPixelWriteComplete n s
  | .idleTimeout n => Sys2Proof.Machine.execIdleTimeout n s
  | .jobReadComplete => Sys2Proof.Machine.execJobReadComplete s
  | .jobWriteComplete => Sys2Proof.Machine.execJobWriteComplete s
  | .frameBoundary => Sys2Proof.Machine.execFrameBoundary s
  | .pixelPeriod => Sys2Proof.Machine.execPixelPeriod s
  | .scanReadComplete => Sys2Proof.Machine.execScanReadComplete s
  | .unknownOpcode opcode low params => Sys2Proof.Machine.execUnknownOpcode opcode low params s

end Sys2Proof.Machine
end

