-- ==== Sys2Proof/Machine/Step.lean ====
section
/-! DEFINITION. One step: the command at the front of the queue, or a microsecond of the time base when none waits. -/

namespace Sys2Proof.Machine

/-- One step. On an empty queue the time base goes on by one microsecond (DESIGN CHOICE, log 6). -/
def step (s : State) : Host.Outcome State Fault Refusal :=
  match s.pending with
  | [] => .next (s.withDevice s.dev.tick)
  | c :: rest => exec c { s with pending := rest }

/-- The command a word spells put at the front of the queue. No word spells one (log 20). -/
def State.withFetchWord (s : State) (nbits w : Nat) : State :=
  match decodeTableWord nbits w with
  | some c => { s with pending := c :: s.pending }
  | none => s

end Sys2Proof.Machine
end

