-- ==== Sys2Proof/Safety.lean ====
section
/-! DEFINITION. The words in which claims about the SC16 are stated: when a command executes as it is written, what its answer
leaves, and the laws of the spec that every step keeps. -/

namespace Sys2Proof.Machine

/-! ## Commands -/

/-- The low byte of a command word declares a command of `n` words: its length field is `n`, or 0 for a command of one
word (R162). -/
def declares (low : Byte) (n : Nat) : Bool :=
  lengthField (commandWord 0 low) == n || (n == 1 && lengthField (commandWord 0 low) == 0)

/-- A whole command written now executes in the row that writes it, if the conditions of its class hold (R157, R160): RESET_N is
high, no command is half written, none waits or is in execution, and the response queue has room. -/
def Device.takesCommands (d : Device) : Bool :=
  d.pins.resetN && d.control.assembly == .idle && d.control.commands.isEmpty && d.pixelRead.isNone && d.responseRoom

/-- The device after a command of an opcode has been answered (R157, R163): its response stands behind the others with its
sequence number, the counter has advanced, and the last access was a write. Nothing else is changed. -/
def Device.answering (d : Device) (opcode : Byte) (r : Reply) : Device :=
  { d with
    pins := { d.pins with dataOut := none }
    control := { d.control with
      nextSeq := d.control.nextSeq + 1
      responses := d.control.responses ++ [⟨d.control.nextSeq, r.status, opcode, r.results⟩] } }

/-- The device after a whole command has joined the queue and waits there (R157, R160). -/
def Device.queueing (d : Device) (word0 : Word) (params : List Word) : Device :=
  { d with
    pins := { d.pins with dataOut := none }
    control := { d.control with
      nextSeq := d.control.nextSeq + 1
      commands := d.control.commands ++ [⟨d.control.nextSeq, word0, params⟩] } }

/-- The head of the command queue, if there is one, waits: nothing executes in the step of an event that leaves this (R160). -/
def Device.headsWait (d : Device) : Prop := ∀ q ∈ d.control.commands.head?, d.headReady q = false

/-- The row of a command. -/
def rowOf (c : Command) (low : Byte) (params : List Word) : Instr :=
  match c with
  | .openSurface => .openSurface low params
  | .closeSurface => .closeSurface low params
  | .querySurface => .querySurface low params
  | .queryPool => .queryPool low params
  | .pixelRead => .pixelRead low params
  | .setPosition => .setPosition low params
  | .setLook => .setLook low params
  | .setBackground => .setBackground low params
  | .commit => .commit low params
  | .discard => .discard low params
  | .queryStaging => .queryStaging low params
  | .place => .place low params
  | .unplace => .unplace low params
  | .queryOrder => .queryOrder low params
  | .panelSetup => .panelSetup low params
  | .panelStart => .panelStart low params
  | .panelStop => .panelStop low params
  | .queryPanel => .queryPanel low params
  | .post => .post low params
  | .bind => .bind low params
  | .unbind => .unbind low params
  | .portConfig => .portConfig low params
  | .queryPort => .queryPort low params
  | .fill => .fill low params
  | .copyForward => .copyForward low params
  | .sceneReset => .sceneReset low params

/-! ## Laws that every step keeps -/

/-- The frame store is in its canonical form. -/
def Device.storeLaw (d : Device) : Prop := Memory.wf d.store

/-- The queues keep within their capacities (R142, R157, R164, R168), at most one job runs (R142), and a PIXEL_READ in execution
has room for its response (R160). -/
def Device.queueLaw (d : Device) : Prop :=
  d.heldWords ≤ Config.commandWords ∧ d.control.responses.length ≤ Config.responseCapacity
    ∧ d.control.completions.length ≤ Config.completionCapacity ∧ d.engine.jobs.length ≤ Config.jobCapacity
    ∧ d.engine.jobs.countP Job.isRunning ≤ 1
    ∧ (d.pixelRead.isSome = true → d.control.responses.length < Config.responseCapacity)

/-- How often a slab stands in the free slab set and in the slab lists of all slots. -/
def Device.slabCount (d : Device) (k : Slab) : Nat :=
  d.freeSlabs.count k + (allSlots.map fun i => (d.surface i).heldSlabs.count k).sum

/-- Slab conservation (R31): every slab stands once, in the free slab set or in one slab list; a FREE slot holds none; the free
slab set is kept ascending (R29). -/
def Device.slabLaw (d : Device) : Prop :=
  (∀ k, d.slabCount k = 1) ∧ (∀ i, (d.surface i).state = .free → (d.surface i).heldSlabs = [])
    ∧ d.freeSlabs.Pairwise (· < ·)

/-- A handle names the surface of its slot, and the slot's state meets a test. -/
def Device.namesState (d : Device) (h : Handle) (test : SlotState → Bool) : Prop :=
  (d.surface h.slot).generation = h.generation ∧ test (d.surface h.slot).state = true

/-- The orders (R42, R62): at most eight handles, none twice; the pending order names DORMANT and LIVE surfaces, and a surface is
in the committed order exactly when its slot is LIVE or CLOSING. -/
def Device.orderLaw (d : Device) : Prop :=
  d.staging.order.Nodup ∧ d.staging.order.length ≤ Config.orderCapacity
    ∧ d.layers.order.Nodup ∧ d.layers.order.length ≤ Config.orderCapacity
    ∧ (∀ h ∈ d.staging.order, d.namesState h SlotState.editable)
    ∧ ∀ h, h ∈ d.layers.order ↔ d.namesState h fun s => s == .live || s == .closing

/-- The bindings (R131): a surface is bound to at most one port, and a binding names a DORMANT or LIVE surface by its current
generation. -/
def Device.bindingLaw (d : Device) : Prop :=
  (∀ m n h, (d.port m).binding = some h → (d.port n).binding = some h → m = n)
    ∧ ∀ n h, (d.port n).binding = some h → d.namesState h SlotState.editable

/-- The idle intervals (R128): one begun under setting T is taken no later than T + 1 microseconds after its start. -/
def Device.intervalLaw (d : Device) : Prop :=
  ∀ n i, (d.port n).interval = some i →
    i.start ≤ d.timeBase ∧ (i.setting ≠ 0 → d.timeBase ≤ i.start + i.setting.toNat + 1)

/-- The tags (R93, Table 1-1): a surface's notice tag and the tags of its appearances are values 0 to 63. -/
def Surface.tagged (s : Surface) : Prop := s.noticeTag ≤ 63 ∧ s.committed.tag ≤ 63 ∧ s.pendingLook.tag ≤ 63

/-- The tags of every slot keep within their range (R93, Table 1-1). -/
def Device.tagLaw (d : Device) : Prop := ∀ i, (d.surface i).tagged

end Sys2Proof.Machine
end

