-- ==== Sys2Proof/WellFormed.lean ====
section
/-! DEFINITION. Which terms of `Instr` are steps of the table: the checks on operands that their types do not make. -/

namespace Sys2Proof

/-- A command is written with as many words as its length field declares (spec/09 Table 9-2, R158); a command
written otherwise loses its framing, and is given word by word with CMD_WORD. -/
def framed (low : Byte) (params : List Word) : Bool :=
  params.length + 1 == admissionLength (commandWord 0 low)

/-- The well-formed steps: a command is framed, and UNKNOWN_OPCODE has an opcode outside Table 9-4 (R162). -/
def Instr.wellFormed : Instr → Bool
  | .openSurface low params => framed low params
  | .closeSurface low params => framed low params
  | .querySurface low params => framed low params
  | .queryPool low params => framed low params
  | .pixelRead low params => framed low params
  | .setPosition low params => framed low params
  | .setLook low params => framed low params
  | .setBackground low params => framed low params
  | .commit low params => framed low params
  | .discard low params => framed low params
  | .queryStaging low params => framed low params
  | .place low params => framed low params
  | .unplace low params => framed low params
  | .queryOrder low params => framed low params
  | .panelSetup low params => framed low params
  | .panelStart low params => framed low params
  | .panelStop low params => framed low params
  | .queryPanel low params => framed low params
  | .post low params => framed low params
  | .bind low params => framed low params
  | .unbind low params => framed low params
  | .portConfig low params => framed low params
  | .queryPort low params => framed low params
  | .fill low params => framed low params
  | .copyForward low params => framed low params
  | .sceneReset low params => framed low params
  | .unknownOpcode opcode low params => framed low params && (commandOf opcode).isNone
  | .pixelReadComplete => true
  | .cmdWord _ => true
  | .respRead => true
  | .complRead => true
  | .ack _ => true
  | .eventWrite _ => true
  | .eventEnableWrite _ => true
  | .ignoredWrite _ _ => true
  | .deviceReset => true
  | .deviceResetRelease => true
  | .portReset _ => true
  | .portResetRelease _ => true
  | .markedWord _ _ => true
  | .unmarkedWord _ _ => true
  | .pixelWriteComplete _ => true
  | .idleTimeout _ => true
  | .jobReadComplete => true
  | .jobWriteComplete => true
  | .frameBoundary => true
  | .pixelPeriod => true
  | .scanReadComplete => true

end Sys2Proof
end

