-- ==== Sys2Proof/Certificates/Slice0/Obligations.lean ====
section
/-! DEFINITION. The statements about the SC16, for the provers. A statement about a command that executes as it is written
takes the device between commands with room for the response (`takesCommands`), a length field that declares the command's
length, and the condition of its class (R160, R161); `answering` is the device with the response added and nothing else
changed. Readings of the model on which statements rest: the row of a command is the whole command written to CMD (log 1); the
heads that an event releases execute at the end of its step (log 22); a row whose event cannot occur leaves the state as it
is (log 2); FRAME_BOUNDARY is the step that begins blanking (log 18). -/

open Sys2Proof Sys2Proof.Machine

/-! ## Steps -/

/-- Step takes the command at the front of the queue and runs it on the state with the queue's rest. -/
def Obligations.StepRunsFrontCommand : Prop :=
  ∀ (c : Instr) (rest : List Instr) (d : Device), step ⟨d, c :: rest⟩ = exec c ⟨d, rest⟩

/-- Every command answers a next state, and never touches the queue: no row stops. -/
def Obligations.EveryCommandCompletes : Prop :=
  ∀ (c : Instr) (s : State), ∃ d : Device, exec c s = .next ⟨d, s.pending⟩

/-- On an empty queue (log 6) each idle interval that can wait no longer, one microsecond past its setting (R128),
ends as IDLE_TIMEOUT ends it, in port order (log 23); when none is left the time base goes on by one microsecond, and
nothing else changes. -/
def Obligations.EmptyQueueTick : Prop :=
  ∀ (d : Device) (due : PortNum → Prop),
    (∀ n, due n ↔ ∃ i, (d.port n).interval = some i ∧ i.setting ≠ 0
      ∧ i.start + i.setting.toNat + 1 ≤ d.timeBase) →
    ((∀ n, ¬ due n) → step ⟨d, []⟩ = .next ⟨{ d with timeBase := d.timeBase + 1 }, []⟩)
    ∧ ∀ n, due n → (∀ m < n, ¬ due m) →
      ∃ e : Device, exec (.idleTimeout n) ⟨d, []⟩ = .next ⟨e, []⟩ ∧ step ⟨d, []⟩ = step ⟨e, []⟩

/-- What the control port reads right after reset (R171, R177, R179), the levels of IRQ_N and SnREADY, the panel
output (R91) and the counters of the ports (R138). The levels of the reset pins are the model's choice (log 10). -/
def Obligations.ResetReads : Prop :=
  State.reset.dev.readLocation .cmd = 64 ∧ State.reset.dev.readLocation .resp = 0
    ∧ State.reset.dev.readLocation .compl = 0 ∧ State.reset.dev.readLocation .ack = 0
    ∧ State.reset.dev.readLocation .event = 0 ∧ State.reset.dev.readLocation .eventEnable = 0
    ∧ State.reset.dev.readLocation .queueStatus = 0 ∧ State.reset.dev.readLocation .deviceStatus = 0
    ∧ State.reset.dev.irqN = true ∧ (∀ n, State.reset.dev.ready n = true)
    ∧ State.reset.dev.panelLevels = ⟨false, false, 0, true, true⟩ ∧ State.reset.dev.scan.frameNumber = 0
    ∧ (∀ n, (State.reset.dev.port n).errorCount = 0 ∧ (State.reset.dev.port n).lastError = .none
      ∧ (State.reset.dev.port n).binding = none)
    ∧ (∀ i, (State.reset.dev.surface i).state = .free ∧ (State.reset.dev.surface i).generation = 0)
    ∧ State.reset.dev.rotation = .pixelRead ∧ State.reset.pending = []

/-! ## Admission and execution of commands -/

/-- While RESET_N is low every write is ignored, every read returns 0000h (R156), and no access changes anything:
D[15:0] is not driven (R185, log 11). With RESET_N high a write to a location whose writes are ignored changes nothing
but D[15:0]. -/
def Obligations.AccessesInReset : Prop :=
  ∀ (s : State) (w : Word) (l : ReadOnlyLocation),
    (s.dev.pins.resetN = false →
      exec (.cmdWord w) s = .next s ∧ exec (.ack w) s = .next s ∧ exec (.eventWrite w) s = .next s
        ∧ exec (.eventEnableWrite w) s = .next s ∧ exec (.ignoredWrite l w) s = .next s
        ∧ exec .respRead s = .next s ∧ exec .complRead s = .next s ∧ ∀ m, s.dev.readLocation m = 0)
      ∧ (s.dev.pins.resetN = true →
        exec (.ignoredWrite l w) s
          = .next (s.withDevice { s.dev with pins := { s.dev.pins with dataOut := none } }))

/-- A word written to CMD (R157, R158; log 22). Between commands it begins one: admitted when its L words fit, with
the next sequence number, otherwise dropped with CMD_OVERFLOW. Later words are stored behind the newest command's
others or discarded. The heads that the word releases execute. L is the length field, 0 read as 1 and 9 to 15 as 8
(Table 9-2). -/
def Obligations.CmdWordTaken : Prop :=
  (∀ (s : State) (w : Word), s.dev.pins.resetN = true →
      (s.dev.control.assembly = .idle → admissionLength w ≤ s.dev.freeWords →
        exec (.cmdWord w) s = .next (s.withDevice (Device.settle
          { s.dev with
            pins := { s.dev.pins with dataOut := none }
            control := { s.dev.control with
              assembly := if admissionLength w = 1 then .idle else .collecting (admissionLength w) 1
              commands := s.dev.control.commands ++ [⟨s.dev.control.nextSeq, w, []⟩]
              nextSeq := s.dev.control.nextSeq + 1 } })))
      ∧ (s.dev.control.assembly = .idle → s.dev.freeWords < admissionLength w → s.dev.headsWait →
        exec (.cmdWord w) s = .next (s.withDevice
          { s.dev with
            pins := { s.dev.pins with dataOut := none }
            control := { s.dev.control with
              assembly := if admissionLength w = 1 then .idle else .dropping (admissionLength w) 1 }
            events := { s.dev.events with latched := s.dev.events.latched ||| 0x0010 } }))
      ∧ (∀ total k, s.dev.control.assembly = .collecting total k →
        exec (.cmdWord w) s = .next (s.withDevice (Device.settle
          { s.dev with
            pins := { s.dev.pins with dataOut := none }
            control := { s.dev.control with
              assembly := if k + 1 < total then .collecting total (k + 1) else .idle
              commands := appendParam w s.dev.control.commands } })))
      ∧ (∀ total k, s.dev.control.assembly = .dropping total k → s.dev.headsWait →
        exec (.cmdWord w) s = .next (s.withDevice
          { s.dev with
            pins := { s.dev.pins with dataOut := none }
            control := { s.dev.control with
              assembly := if k + 1 < total then .dropping total (k + 1) else .idle } })))
  ∧ (∀ (w : Word) (k : Nat), k = w.toNat % 16 →
      admissionLength w = if k = 0 then 1 else if k ≤ 8 then k else 8)
  ∧ ∀ (w : Word) (older : List QueuedCommand) (q : QueuedCommand),
    appendParam w (older ++ [q]) = older ++ [{ q with params := q.params ++ [w] }]

/-- The command queue (R157 to R160; log 1, log 22). A whole command, of any opcode, written while the head, or the
command itself as the head, must wait joins the queue with the next sequence number and changes nothing else. One that
does not fit is dropped: CMD_OVERFLOW is latched and no sequence number is taken. In the step of an event nothing
executes while the head waits, and a head whose conditions hold executes, followed by the heads that its execution
releases; what it does does not depend on the commands behind it. The conditions (R160): all L words stored, response
room, the staging set OPEN for a staging-class command, places in the job queue for a job-class one, and no PIXEL_READ
in execution. The class of a command by its opcode, and for OPEN by its length and its mode word (R161, Table 9-4). -/
def Obligations.CommandQueueKept : Prop :=
  (∀ (s : State) (low : Byte) (params : List Word), s.dev.pins.resetN = true → s.dev.control.assembly = .idle →
      framed low params = true → params.length + 1 ≤ s.dev.freeWords →
      (∀ c : Command, (s.dev.queueing (commandWord (commandCode c) low) params).headsWait →
        exec (rowOf c low params) s
          = .next (s.withDevice (s.dev.queueing (commandWord (commandCode c) low) params)))
      ∧ ∀ opcode : Byte, (s.dev.queueing (commandWord opcode low) params).headsWait →
        exec (.unknownOpcode opcode low params) s
          = .next (s.withDevice (s.dev.queueing (commandWord opcode low) params)))
  ∧ (∀ (s : State) (low : Byte) (params : List Word) (dropped : Device), s.dev.pins.resetN = true →
      s.dev.control.assembly = .idle → framed low params = true → s.dev.freeWords < params.length + 1 →
      s.dev.headsWait →
      dropped = { s.dev with
        pins := { s.dev.pins with dataOut := none }
        events := { s.dev.events with latched := s.dev.events.latched ||| 0x0010 } } →
      (∀ c : Command, exec (rowOf c low params) s = .next (s.withDevice dropped))
      ∧ ∀ opcode : Byte, exec (.unknownOpcode opcode low params) s = .next (s.withDevice dropped))
  ∧ (∀ d : Device, (d.headsWait → d.settle = d)
      ∧ ∀ q rest, d.control.commands = q :: rest → d.headReady q = true → d.settle = (executeHead q d).settle)
  ∧ (∀ (d : Device) (q : QueuedCommand) (rest : List QueuedCommand), ∃ behind : List QueuedCommand,
      (executeHead q { d with control := { d.control with commands := [q] } }).control.commands = behind
      ∧ executeHead q { d with control := { d.control with commands := q :: rest } }
        = { executeHead q { d with control := { d.control with commands := [q] } } with
            control := { (executeHead q { d with control := { d.control with commands := [q] } }).control with
              commands := behind ++ rest } })
  ∧ (∀ (d : Device) (q : QueuedCommand),
      d.headReady q = true ↔ d.pixelRead = none ∧ admissionLength q.word0 ≤ q.params.length + 1
        ∧ d.control.responses.length < 8 ∧ (waitClass q = .staging → d.staging.state = .opened)
        ∧ ∀ places, waitClass q = .job places → d.engine.jobs.length + places ≤ 4)
  ∧ (∀ (d : Device) (places : Nat), d.classReady .unclassed = true
      ∧ (d.classReady .staging = true ↔ d.staging.state = .opened)
      ∧ (d.classReady (.job places) = true ↔ d.engine.jobs.length + places ≤ 4))
  ∧ ∀ (q : QueuedCommand) (opcode : Byte), opcode = opcodeField q.word0 →
    (opcode ∈ ([0x02, 0x10, 0x11, 0x12, 0x13, 0x14, 0x18, 0x19] : List Byte) → waitClass q = .staging)
    ∧ (opcode ∈ ([0x38, 0x39] : List Byte) → waitClass q = .job 1)
    ∧ (opcode = 0x01 → ∀ mode rest, q.params = mode :: rest → admissionLength q.word0 = 8 →
      mode.getLsbD 8 = true → waitClass q = .job (if fieldOf mode 0 2 = 1 then 2 else 1))
    ∧ (opcode = 0x01 →
      (∀ mode rest, q.params = mode :: rest → admissionLength q.word0 = 8 → mode.getLsbD 8 = false) →
      waitClass q = .unclassed)
    ∧ (opcode ∉ ([0x01, 0x02, 0x10, 0x11, 0x12, 0x13, 0x14, 0x18, 0x19, 0x38, 0x39] : List Byte) →
      waitClass q = .unclassed)

/-- A command of Table 9-4 written with another length is refused with BAD_LENGTH once its class lets it execute
(R161, R162), and one whose opcode is not in Table 9-4 with BAD_COMMAND (R162); neither has another effect. The
opcodes and lengths (Table 11-3, Table 9-4), and the fields of a command word (Table 11-2). -/
def Obligations.MalformedCommandsRefused : Prop :=
  (∀ (s : State) (c : Command) (low : Byte) (params : List Word), s.dev.takesCommands = true →
      framed low params = true → declares low (commandLength c) = false →
      s.dev.classReady (waitClass ⟨s.dev.control.nextSeq, commandWord (commandCode c) low, params⟩) = true →
      exec (rowOf c low params) s = .next (s.withDevice (s.dev.answering (commandCode c) (refusal .badLength))))
  ∧ (∀ (s : State) (opcode low : Byte) (params : List Word), s.dev.takesCommands = true →
      Instr.wellFormed (.unknownOpcode opcode low params) = true →
      exec (.unknownOpcode opcode low params) s
        = .next (s.withDevice (s.dev.answering opcode (refusal .badCommand))))
  ∧ [Command.openSurface, .closeSurface, .querySurface, .queryPool, .pixelRead, .setPosition, .setLook, .setBackground,
      .commit, .discard, .queryStaging, .place, .unplace, .queryOrder, .panelSetup, .panelStart, .panelStop, .queryPanel,
      .post, .bind, .unbind, .portConfig, .queryPort, .fill, .copyForward, .sceneReset].map
      (fun c => ((commandCode c).toNat, commandLength c))
    = [(0x01, 8), (0x02, 2), (0x03, 2), (0x08, 1), (0x09, 5), (0x10, 4), (0x11, 3), (0x12, 2),
      (0x13, 1), (0x14, 1), (0x15, 1), (0x18, 4), (0x19, 2), (0x1A, 1), (0x20, 6), (0x21, 1), (0x22, 1), (0x23, 1),
      (0x28, 2), (0x30, 3), (0x31, 2), (0x32, 3), (0x33, 2), (0x38, 8), (0x39, 6), (0x3F, 1)]
  ∧ (∀ opcode low : Byte, (commandWord opcode low).toNat = opcode.toNat * 0x100 + low.toNat
      ∧ opcodeField (commandWord opcode low) = opcode)
  ∧ ∀ (low : Byte) (n : Nat),
    declares low n = true ↔ low.toNat % 16 = n ∨ n = 1 ∧ low.toNat % 16 = 0

/-- The checks of R4 and R6: BAD_HANDLE unless the slot is DORMANT, LIVE or CLOSING under the handle's generation,
then BAD_STATE for a CLOSING surface; a handle read from the word that carries it is the handle, slot in bits 11:8 and
generation in 7:0 (Table 11-5). -/
def Obligations.HandlesChecked : Prop :=
  ∀ (d : Device) (h : Handle),
    (d.validHandle h = true ↔ (d.surface h.slot).generation = h.generation
      ∧ ((d.surface h.slot).state = .dormant ∨ (d.surface h.slot).state = .live
        ∨ (d.surface h.slot).state = .closing))
    ∧ (d.handleRefusal h = some .badHandle ↔ d.validHandle h = false)
    ∧ (d.handleRefusal h = some .badState ↔ d.validHandle h = true ∧ (d.surface h.slot).state = .closing)
    ∧ (d.handleRefusal h = none ↔ d.validHandle h = true ∧ (d.surface h.slot).state ≠ .closing)
    ∧ handleOf (handleWord h) = h
    ∧ (handleWord h).toNat = h.slot.val * 0x100 + h.generation.toNat
    ∧ ∀ w : Word, (handleOf w).slot.val = w.toNat / 0x100 % 16 ∧ (handleOf w).generation.toNat = w.toNat % 0x100

/-- The structured parameter words read whole (Table 11-5, R181): a mode word, a look word and a timing word give a
value exactly when they are the word with that value's fields and 0 everywhere else. -/
def Obligations.ParameterWordsReadWhole : Prop :=
  ∀ w : Word,
    (∀ m : OpenMode, decodeMode w = some m ↔
      w = flagAt (m.buffering == .double) 0 ||| bitsAt (orientationCode m.orientation) 4 ||| flagAt m.fill 8)
    ∧ (∀ l : Look, decodeLook w = some l ↔
      l.opacity ≤ 16 ∧ l.tag ≤ 63 ∧ w = bitsAt l.opacity 0 ||| bitsAt l.tag 8)
    ∧ (∀ t : Timing, decodeTiming w = some t ↔
      1 ≤ t.divider ∧ t.divider ≤ 16
        ∧ w = bitsAt t.divider 0 ||| bitsAt (polarityCode t.hPolarity) 8 ||| bitsAt (polarityCode t.vPolarity) 9)

/-! ## Surfaces -/

/-- OPEN (R5, R8 to R11): its refusals in their order, and without the fill flag the whole new state: the lowest FREE
slot becomes DORMANT with the lowest free slabs, and the answer is the handle and the slab count. The slabs of a
buffer (R2), those requested (R10) and the next generation (R5). -/
def Obligations.OpenResult : Prop :=
  (∀ n, slabsWanted .single n = n ∧ slabsWanted .double n = 2 * n)
  ∧ (∀ w h, w * h ≤ slabsFor w h * 4096 ∧ slabsFor w h * 4096 < w * h + 4096)
  ∧ (∀ g : Byte, nextGeneration g = if g = 255 then 1 else g + 1)
  ∧ (∀ (s : State) (low : Byte) (mw sw sh x y lw colour : Word), s.dev.takesCommands = true → declares low 8 = true →
      (mw.getLsbD 8 = true →
        s.dev.engine.jobs.length + (if fieldOf mw 0 2 = 1 then 2 else 1) ≤ 4) →
      ((decodeMode mw = none ∨ decodeLook lw = none ∨ sw.toNat < 1 ∨ 1024 < sw.toNat ∨ sh.toNat < 1
          ∨ 1024 < sh.toNat ∨ 2047 < x.toNat ∨ 2047 < y.toNat) →
        exec (.openSurface low [mw, sw, sh, x, y, lw, colour]) s
          = .next (s.withDevice (s.dev.answering 0x01 (refusal .badParam))))
      ∧ ∀ (mode : OpenMode) (look : Look), decodeMode mw = some mode → decodeLook lw = some look →
        1 ≤ sw.toNat → sw.toNat ≤ 1024 → 1 ≤ sh.toNat → sh.toNat ≤ 1024 → x.toNat ≤ 2047 → y.toNat ≤ 2047 →
        ((∀ i, (s.dev.surface i).state ≠ .free) →
          exec (.openSurface low [mw, sw, sh, x, y, lw, colour]) s
            = .next (s.withDevice (s.dev.answering 0x01 (refusal .noSpace))))
        ∧ ∀ i, (s.dev.surface i).state = .free → (∀ j < i, (s.dev.surface j).state ≠ .free) →
          (s.dev.freeSlabs.length < slabsWanted mode.buffering (slabsFor sw.toNat sh.toNat) →
            exec (.openSurface low [mw, sw, sh, x, y, lw, colour]) s
              = .next (s.withDevice (s.dev.answering 0x01 (refusal .noSpace))))
          ∧ (slabsWanted mode.buffering (slabsFor sw.toNat sh.toNat) ≤ s.dev.freeSlabs.length → ∀ opened : Device,
            opened =
                  { s.dev with
                    freeSlabs := s.dev.freeSlabs.drop (slabsWanted mode.buffering (slabsFor sw.toNat sh.toNat))
                    surfaces := s.dev.surfaces.set i
                      { state := .dormant
                        generation :=
                          if (s.dev.surface i).generation = 255 then 1 else (s.dev.surface i).generation + 1
                        buffering := mode.buffering
                        orientation := mode.orientation
                        sourceWidth := sw.toNat
                        sourceHeight := sh.toNat
                        bufferA := s.dev.freeSlabs.take (slabsFor sw.toNat sh.toNat)
                        bufferB :=
                          if mode.buffering = .single then none
                          else some ((s.dev.freeSlabs.drop (slabsFor sw.toNat sh.toNat)).take
                            (slabsFor sw.toNat sh.toNat))
                        front := .a
                        committed := ⟨x.toNat, y.toNat, look.opacity, look.tag⟩
                        pendingLook := ⟨x.toNat, y.toNat, look.opacity, look.tag⟩
                        flip := .none
                        noticeTag := 0
                        flipCount := 0 } } →
            s.dev.takeSlot i mode look sw.toNat sh.toNat x.toNat y.toNat = opened
            ∧ (mode.fill = false →
              exec (.openSurface low [mw, sw, sh, x, y, lw, colour]) s
                = .next (s.withDevice (opened.answering 0x01
                    (okReply [handleWord ⟨i, nextGeneration (s.dev.surface i).generation⟩,
                      wordOf (slabsFor sw.toNat sh.toNat)]))))))

/-- OPEN with the fill flag (R8, R12): the same surface (`takeSlot`, which OpenResult states), and one FILL job over
the whole of each buffer, buffer A's first; the answer adds their job ids. -/
def Obligations.OpenFillResult : Prop :=
  ∀ (s : State) (low : Byte) (mw sw sh x y lw colour : Word) (mode : OpenMode) (look : Look) (i : Slot),
    s.dev.takesCommands = true → declares low 8 = true → decodeMode mw = some mode → decodeLook lw = some look →
    mode.fill = true →
    s.dev.engine.jobs.length + (if mode.buffering = .double then 2 else 1) ≤ 4 →
    1 ≤ sw.toNat → sw.toNat ≤ 1024 → 1 ≤ sh.toNat → sh.toNat ≤ 1024 → x.toNat ≤ 2047 → y.toNat ≤ 2047 →
    (s.dev.surface i).state = .free → (∀ j < i, (s.dev.surface j).state ≠ .free) →
    slabsWanted mode.buffering (slabsFor sw.toNat sh.toNat) ≤ s.dev.freeSlabs.length →
    ∀ (opened : Device) (h : Handle) (whole : Rect),
      opened = s.dev.takeSlot i mode look sw.toNat sh.toNat x.toNat y.toNat →
      h = ⟨i, nextGeneration (s.dev.surface i).generation⟩ →
      whole = ⟨0, 0, (opened.surface i).width, (opened.surface i).height⟩ →
      (mode.buffering = .single →
        exec (.openSurface low [mw, sw, sh, x, y, lw, colour]) s
          = .next (s.withDevice ((opened.admitJob (.fill colour) h .a whole).answering 0x01
              (okReply [handleWord h, wordOf (slabsFor sw.toNat sh.toNat), s.dev.engine.nextId.setWidth 16]))))
      ∧ (mode.buffering = .double →
        exec (.openSurface low [mw, sw, sh, x, y, lw, colour]) s
          = .next (s.withDevice (((opened.admitJob (.fill colour) h .a whole).admitJob (.fill colour) h .b
              whole).answering 0x01
              (okReply [handleWord h, wordOf (slabsFor sw.toNat sh.toNat), s.dev.engine.nextId.setWidth 16,
                (s.dev.engine.nextId + 1).setWidth 16]))))

/-- CLOSE (R13, R15, R16, R152): refusals; a LIVE surface is closed staged, a DORMANT one immediately, the withdrawals
(`closeWithdraw`, which CloseWithdraws states) and the new state first, then the JOB_END records of the QUEUED and
RUNNING jobs that it aborts, in admission order, then for the immediate form the examination of the release. -/
def Obligations.CloseResult : Prop :=
  ∀ (s : State) (low : Byte) (hw : Word) (h : Handle) (withdrawn : Device) (aborted : List Byte),
    s.dev.takesCommands = true → declares low 2 = true → s.dev.staging.state = .opened → h = handleOf hw →
    withdrawn = (s.dev.dropFromPending h).closeWithdraw h →
    aborted = (s.dev.engine.jobs.filter fun j => j.handle == h && (j.state == .queued || j.state == .running)).map
      (fun j => j.id) →
    (∀ status, s.dev.handleRefusal h = some status →
      exec (.closeSurface low [hw]) s = .next (s.withDevice (s.dev.answering 0x02 (refusal status))))
    ∧ (s.dev.handleRefusal h = none → (s.dev.surface h.slot).state = .live →
      exec (.closeSurface low [hw]) s
        = .next (s.withDevice (Device.answering
            (aborted.foldl Device.offerJobEnd
              { withdrawn with
                surfaces := withdrawn.surfaces.set h.slot { withdrawn.surface h.slot with state := .closing }
                staging := { withdrawn.staging with dirty := true } })
            0x02 (okReply [1]))))
    ∧ (s.dev.handleRefusal h = none → (s.dev.surface h.slot).state ≠ .live →
      exec (.closeSurface low [hw]) s
        = .next (s.withDevice (Device.answering
            ((aborted.foldl Device.offerJobEnd
              { withdrawn with
                surfaces := withdrawn.surfaces.set h.slot
                  { withdrawn.surface h.slot with state := .releasing } }).examineRelease h.slot)
            0x02 (okReply [0]))))

/-- What both forms of CLOSE withdraw at once (R14, R35, R134, R152): the handle leaves the pending order and the flip
state becomes NONE. The port bound to the surface is unbound; one with a header or burst in progress goes to DISCARD
with ABANDONED, and its PORTn is latched. The surface's QUEUED and RUNNING jobs become ABORTED, a running one's
request is withdrawn, and the next QUEUED job starts (`startJob`, R148). The bound port's write that waits is
withdrawn; if it is the one the arbiter grants next, its grant may have been taken first (free value, log 3), and
every other pixel reads as before. No record is placed, no slab moves, and no other surface, port or block changes. -/
def Obligations.CloseWithdraws : Prop :=
  ∀ (d e : Device) (h : Handle), d.bindingLaw → e = (d.dropFromPending h).closeWithdraw h →
    e.staging = { d.staging with order := d.staging.order.erase h }
    ∧ (∀ i, e.surface i = if i = h.slot then { d.surface i with flip := .none } else d.surface i)
    ∧ (∀ n, (d.port n).binding ≠ some h → e.port n = d.port n)
    ∧ ((∀ n, (d.port n).binding ≠ some h) → e.events = d.events)
    ∧ (∀ n, (d.port n).binding = some h →
      (((d.port n).state = .idle ∨ (d.port n).state = .discarding) →
        e.port n = { d.port n with binding := none } ∧ e.events = d.events)
      ∧ (((d.port n).state = .header ∨ (d.port n).state = .stalled ∨ (d.port n).state = .pixels) →
        e.port n = { d.port n with
          state := .discarding
          binding := none
          header := []
          burst := none
          writeRequest := none
          interval := none
          lastError := .abandoned
          errorCount := if (d.port n).errorCount < 255 then (d.port n).errorCount + 1 else 255 }
        ∧ e.events = { d.events with latched := d.events.latched ||| bitsAt 1 (6 + n.val) }))
    ∧ e.engine = (Device.startJob
        { d with
          engine := { d.engine with
            jobs := d.engine.jobs.map (fun j =>
              if j.handle = h ∧ (j.state = .queued ∨ j.state = .running) then { j with state := .aborted } else j)
            request :=
              if d.engine.jobs.any (fun j => j.state == .running && j.handle == h) then none
              else d.engine.request } }).engine
    ∧ ((∀ n, (d.port n).binding = some h →
        (d.port n).writeRequest = none ∨ d.grants (.rotating (.port n)) = false
          ∨ (d.port n).state = .idle ∨ (d.port n).state = .discarding) →
      e.store = d.store ∧ e.rotation = d.rotation ∧ e.freeIndex = d.freeIndex)
    ∧ (∀ n r, (d.port n).binding = some h →
      ((d.port n).state = .header ∨ (d.port n).state = .stalled ∨ (d.port n).state = .pixels) →
      (d.port n).writeRequest = some r → d.grants (.rotating (.port n)) = true →
      e.freeIndex = d.freeIndex + 1
      ∧ e.store = (if Config.grantTakenFirst d.freeIndex then d.store.writePixel r.pos r.pixel else d.store)
      ∧ e.rotation = if Config.grantTakenFirst d.freeIndex then .port n else d.rotation)
    ∧ (Memory.wf d.store → ∀ q,
      (∀ n r, (d.port n).binding = some h → (d.port n).writeRequest = some r → q ≠ r.pos) →
      e.store.readPixel q = d.store.readPixel q)
    ∧ e.control = d.control ∧ e.freeSlabs = d.freeSlabs ∧ e.layers = d.layers ∧ e.scan = d.scan
    ∧ e.pins = d.pins ∧ e.pixelRead = d.pixelRead ∧ e.timeBase = d.timeBase

/-- QUERY_SURFACE (R22, Table 11-9) answers the record of a DORMANT, LIVE or CLOSING surface, QUERY_PORT (R137, Table
11-10, R182) the record of a port; neither changes anything else. The codes of their fields are those of Tables 11-5,
11-9 and 11-10. The flip count, which R107 names too, has no field (log 25). -/
def Obligations.SurfaceAndPortQueried : Prop :=
  (∀ (s : State) (low : Byte) (hw : Word), s.dev.takesCommands = true → declares low 2 = true →
      (s.dev.validHandle (handleOf hw) = false →
        exec (.querySurface low [hw]) s = .next (s.withDevice (s.dev.answering 0x03 (refusal .badHandle))))
      ∧ ∀ r : Surface, r = s.dev.surface (handleOf hw).slot → s.dev.validHandle (handleOf hw) = true →
        exec (.querySurface low [hw]) s
          = .next (s.withDevice (s.dev.answering 0x03 (okReply
              [ bitsAt (slotStateCode r.state) 0 ||| flagAt (r.buffering == .double) 2
                  ||| bitsAt (orientationCode r.orientation) 3 ||| bitsAt (bufferCode r.front) 6
                  ||| bitsAt (flipCode r.flip) 7 ||| flagAt (s.dev.boundPort (handleOf hw)).isSome 9
                  ||| bitsAt (((s.dev.boundPort (handleOf hw)).map Fin.val).getD 0) 10
                  ||| bitsAt (s.dev.engine.jobs.countP fun j => j.handle == handleOf hw) 12
                  ||| bitsAt (r.committed.opacity / 16) 15
              , wordOf r.sourceWidth, wordOf r.sourceHeight, wordOf r.committed.x, wordOf r.committed.y
              , bitsAt r.committed.tag 0 ||| bitsAt r.noticeTag 6 ||| bitsAt (r.committed.opacity % 16) 12 ]))))
  ∧ (∀ (s : State) (low : Byte) (pw : Word), s.dev.takesCommands = true → declares low 2 = true →
      (3 < pw.toNat →
        exec (.queryPort low [pw]) s = .next (s.withDevice (s.dev.answering 0x33 (refusal .badParam))))
      ∧ ∀ (n : PortNum) (p : Port), pw.toNat = n.val → p = s.dev.port n →
        exec (.queryPort low [pw]) s = .next (s.withDevice (s.dev.answering 0x33 (okReply
          [ bitsAt (portStateCode p.state) 0 ||| flagAt p.held 3 ||| flagAt p.binding.isSome 4
              ||| bitsAt (if p.state = .header then p.header.length else 0) 5
              ||| flagAt ((p.state == .stalled || p.state == .pixels) && p.burst.any fun b => b.postOnEnd) 8
              ||| bitsAt (if p.state = .pixels then ((p.burst.bind fun b => b.buffer).map bufferCode).getD 0 else 0) 9
              ||| bitsAt (portErrorCode p.lastError) 12
          , (p.binding.map handleWord).getD 0, p.timeoutSetting, wordOf p.errorCount, p.burstsCompleted
          , wordOf (if p.state = .pixels then
              (p.burst.map fun b => b.height - (b.width * b.height - b.remaining) / b.width).getD 0 else 0) ]))))
  ∧ [SlotState.dormant, .live, .closing].map slotStateCode = [1, 2, 3]
  ∧ [FlipState.none, .posted, .shown, .shownHeld].map flipCode = [0, 1, 2, 3]
  ∧ [Orientation.r0, .r90, .r180, .r270, .m0, .m90, .m180, .m270].map orientationCode = [0, 1, 2, 3, 4, 5, 6, 7]
  ∧ [BufferId.a, .b].map bufferCode = [0, 1]
  ∧ [PortState.idle, .header, .stalled, .pixels, .discarding].map portStateCode = [0, 1, 2, 3, 4]
  ∧ [PortError.none, .notBound, .badHeader, .badRect, .shortBurst, .overrun, .timeout, .abandoned, .portReset].map
      portErrorCode
    = [0, 1, 2, 3, 4, 5, 6, 7, 8]

/-! ## Frame store -/

/-- QUERY_POOL (R39) answers the free slabs, those held by open surfaces and those of RELEASING slots, which sum to
256 under slab conservation (R31), and the lowest free slab; it changes nothing. A surface holds the slabs of its
buffers (R2). -/
def Obligations.QueryPoolResult : Prop :=
  (∀ (s : State) (low : Byte), s.dev.takesCommands = true → declares low 1 = true →
      exec (.queryPool low []) s
        = .next (s.withDevice (s.dev.answering 0x08 (okReply
            [ wordOf s.dev.freeSlabs.length
            , wordOf (s.dev.slabsHeld fun st => st == .dormant || st == .live || st == .closing)
            , wordOf (s.dev.slabsHeld fun st => st == .releasing)
            , wordOf ((s.dev.freeSlabs.head?.map Fin.val).getD 256) ])))
      ∧ (s.dev.slabLaw →
        s.dev.freeSlabs.length + s.dev.slabsHeld (fun st => st == .dormant || st == .live || st == .closing)
          + s.dev.slabsHeld (fun st => st == .releasing) = 256))
  ∧ (∀ r : Surface, r.heldSlabs = r.bufferA ++ r.bufferB.getD [])
  ∧ ∀ (d : Device) (test : SlotState → Bool), d.slabsHeld test
    = (allSlots.map fun i => if test (d.surface i).state then (d.surface i).heldSlabs.length else 0).sum

/-- PIXEL_READ (R37, R38): its refusals in their order; otherwise it stays at the head with its one read request, for
buffer A of a SINGLE surface, the front or the other buffer of a DOUBLE one. PIXEL_READ_COMPLETE (R34, R36, R38): when
the arbiter grants it, the command at the head is answered with the pixel and the buffer read, the pointer names
PIXEL_READ, and the heads behind it follow; otherwise the event does not occur (log 2). -/
def Obligations.PixelReadTaken : Prop :=
  (∀ (s : State) (low : Byte) (hw sel x y : Word) (r : Surface), s.dev.takesCommands = true → declares low 5 = true →
      r = s.dev.surface (handleOf hw).slot →
      (s.dev.validHandle (handleOf hw) = false →
        exec (.pixelRead low [hw, sel, x, y]) s
          = .next (s.withDevice (s.dev.answering 0x09 (refusal .badHandle))))
      ∧ (s.dev.validHandle (handleOf hw) = true → (1 < sel.toNat ∨ r.width ≤ x.toNat ∨ r.height ≤ y.toNat) →
        exec (.pixelRead low [hw, sel, x, y]) s
          = .next (s.withDevice (s.dev.answering 0x09 (refusal .badParam))))
      ∧ (s.dev.validHandle (handleOf hw) = true → sel.toNat ≤ 1 → x.toNat < r.width → y.toNat < r.height →
        ∀ buffer : BufferId,
          buffer = (if r.buffering = .single then .a else if sel = 0 then r.front else r.front.other) →
          exec (.pixelRead low [hw, sel, x, y]) s
            = .next (s.withDevice
                { s.dev.queueing (commandWord 0x09 low) [hw, sel, x, y] with
                  pixelRead := some ⟨r.pixelAt buffer x.toNat y.toNat, buffer⟩ })))
  ∧ (∀ (s : State),
      (∀ (r : PixelReadOp) (q : QueuedCommand) (rest : List QueuedCommand), s.dev.pixelRead = some r →
        s.dev.control.commands = q :: rest → s.dev.grants (.rotating .pixelRead) = true →
        exec .pixelReadComplete s
          = .next (s.withDevice (Device.settle
              { s.dev with
                pixelRead := none
                rotation := .pixelRead
                control := { s.dev.control with
                  commands := rest
                  responses := s.dev.control.responses ++
                    [⟨q.seq, .ok, opcodeField q.word0, [s.dev.store.readPixel r.pos, wordOf (bufferCode r.buffer)]⟩] } })))
      ∧ (s.dev.grants (.rotating .pixelRead) = false → exec .pixelReadComplete s = .next s))

/-- The arbiter (R34): a scan-engine read is granted first; otherwise the grant goes to the first client with a
request after the pointer. A port requests while it has a write pending, the block engine while its running job has a
request, and PIXEL_READ while one is in execution (R33). The clients after one of them are the cyclic order S0, S1,
S2, S3, block engine, PIXEL_READ, turned so that it stands last. -/
def Obligations.ArbiterGrants : Prop :=
  (∀ before c after,
      [RotatingClient.port 0, .port 1, .port 2, .port 3, .blockEngine, .pixelRead] = before ++ c :: after →
      rotationAfter c = after ++ before ++ [c])
  ∧ ∀ d : Device,
    (∀ n, d.requesting (.port n) = true ↔ (d.port n).writeRequest ≠ none)
    ∧ (d.requesting .blockEngine = true ↔ d.engine.request ≠ none)
    ∧ (d.requesting .pixelRead = true ↔ d.pixelRead ≠ none)
    ∧ (d.grants .scan = true ↔ d.scan.reads ≠ [])
    ∧ ∀ c : RotatingClient, d.grants (.rotating c) = true ↔
      d.scan.reads = [] ∧ d.requesting c = true
        ∧ ∃ before after, rotationAfter d.rotation = before ++ c :: after
          ∧ ∀ e ∈ before, d.requesting e = false

/-- The frame store (R25, R32, R36): a write keeps the canonical form, the pixel written is read back, and every other
pixel and every byte outside its two bytes reads as before. Buffer pixels (R26, R27): with a slab list long enough,
pixel (x, y) lies in the slab list's entry i div 4096 at place i mod 4096, i = y × W + x, and different pixels of a
buffer with no slab twice lie at different positions. -/
def Obligations.FrameStoreHoldsPixels : Prop :=
  (∀ (m : Memory) (p : PixelPos) (w : Pixel), Memory.wf m →
      Memory.wf (m.writePixel p w) ∧ (m.writePixel p w).readPixel p = w
      ∧ (∀ q, q ≠ p → (m.writePixel p w).readPixel q = m.readPixel q)
      ∧ ∀ a, a ≠ p.address → a ≠ p.address + 1 → (m.writePixel p w).readByte a = m.readByte a)
  ∧ (∀ (r : Surface) (side : BufferId), (r.slabList side).length = slabsFor r.sourceWidth r.sourceHeight →
      (r.slabList side).Nodup → ∀ x y, x < r.width → y < r.height →
      (r.slabList side)[(y * r.width + x) / 4096]? = some (r.pixelAt side x y).slab
      ∧ (r.pixelAt side x y).place.val = (y * r.width + x) % 4096
      ∧ ∀ x' y', x' < r.width → y' < r.height → r.pixelAt side x' y' = r.pixelAt side x y → x' = x ∧ y' = y)
  ∧ (∀ p : PixelPos, p.address = p.slab.val * 8192 + 2 * p.place.val)
  ∧ ∀ r : Surface, r.slabList .a = r.bufferA ∧ r.slabList .b = r.bufferB.getD []

/-! ## Staging and orders -/

/-- SET_POSITION (R44) and SET_LOOK (R45): their refusals in their order; otherwise the pending x and y, or the
pending opacity and tag, of the named surface change, the dirty flag is set, and nothing else changes. -/
def Obligations.AppearanceEdits : Prop :=
  ∀ (s : State) (low : Byte) (hw : Word) (r : Surface), s.dev.takesCommands = true → s.dev.staging.state = .opened →
    r = s.dev.surface (handleOf hw).slot →
    (declares low 4 = true → ∀ x y : Word,
      (∀ status, s.dev.handleRefusal (handleOf hw) = some status →
        exec (.setPosition low [hw, x, y]) s = .next (s.withDevice (s.dev.answering 0x10 (refusal status))))
      ∧ (s.dev.handleRefusal (handleOf hw) = none → (2047 < x.toNat ∨ 2047 < y.toNat) →
        exec (.setPosition low [hw, x, y]) s = .next (s.withDevice (s.dev.answering 0x10 (refusal .badParam))))
      ∧ (s.dev.handleRefusal (handleOf hw) = none → x.toNat ≤ 2047 → y.toNat ≤ 2047 →
        exec (.setPosition low [hw, x, y]) s = .next (s.withDevice (Device.answering
          { s.dev with
            surfaces := s.dev.surfaces.set (handleOf hw).slot
              { r with pendingLook := { r.pendingLook with x := x.toNat, y := y.toNat } }
            staging := { s.dev.staging with dirty := true } }
          0x10 (okReply [])))))
    ∧ (declares low 3 = true → ∀ lw : Word,
      (∀ status, s.dev.handleRefusal (handleOf hw) = some status →
        exec (.setLook low [hw, lw]) s = .next (s.withDevice (s.dev.answering 0x11 (refusal status))))
      ∧ (s.dev.handleRefusal (handleOf hw) = none → decodeLook lw = none →
        exec (.setLook low [hw, lw]) s = .next (s.withDevice (s.dev.answering 0x11 (refusal .badParam))))
      ∧ (s.dev.handleRefusal (handleOf hw) = none → ∀ look, decodeLook lw = some look →
        exec (.setLook low [hw, lw]) s = .next (s.withDevice (Device.answering
          { s.dev with
            surfaces := s.dev.surfaces.set (handleOf hw).slot
              { r with pendingLook := { r.pendingLook with opacity := look.opacity, tag := look.tag } }
            staging := { s.dev.staging with dirty := true } }
          0x11 (okReply [])))))

/-- SET_BACKGROUND (R46): the pending background takes the colour and the dirty flag is set; it is always answered OK,
and the committed background takes the pending one at the batch apply. -/
def Obligations.SetBackgroundResult : Prop :=
  (∀ (s : State) (low : Byte) (colour : Word), s.dev.takesCommands = true → declares low 2 = true →
    s.dev.staging.state = .opened →
    exec (.setBackground low [colour]) s = .next (s.withDevice (Device.answering
      { s.dev with staging := { s.dev.staging with background := colour, dirty := true } } 0x12 (okReply []))))
  ∧ ∀ (d : Device) (idle : Bool), (d.applyBatch idle).layers.background = d.staging.background

/-- COMMIT (R48, R49): clean, it is answered NOTHING_STAGED and changes nothing; dirty, it arms the staging set and is
answered ARMED, after the idle apply point that it offers while STOPPED (R88). DISCARD (R57, R58): pending order,
background and appearances become the committed ones, CLOSING surfaces return to LIVE and are counted in the answer,
the dirty flag is cleared, and nothing else changes. -/
def Obligations.CommitAndDiscardResult : Prop :=
  (∀ (s : State) (low : Byte), s.dev.takesCommands = true → declares low 1 = true → s.dev.staging.state = .opened →
      (s.dev.staging.dirty = false →
        exec (.commit low []) s = .next (s.withDevice (s.dev.answering 0x13 (okReply [0]))))
      ∧ (s.dev.staging.dirty = true → s.dev.scan.state ≠ .stopped →
        exec (.commit low []) s = .next (s.withDevice (Device.answering
          { s.dev with staging := { s.dev.staging with state := .armed } } 0x13 (okReply [1]))))
      ∧ (s.dev.staging.dirty = true → s.dev.scan.state = .stopped →
        exec (.commit low []) s = .next (s.withDevice (Device.answering
          (Device.applyPoint { s.dev with staging := { s.dev.staging with state := .armed } } true)
          0x13 (okReply [1])))))
  ∧ (∀ (s : State) (low : Byte), s.dev.takesCommands = true → declares low 1 = true → s.dev.staging.state = .opened →
      ∃ surfaces : Vector Surface 16,
        exec (.discard low []) s = .next (s.withDevice (Device.answering
          { s.dev with
            surfaces := surfaces
            staging := { s.dev.staging with
              order := s.dev.layers.order, background := s.dev.layers.background, dirty := false } }
          0x14 (okReply [wordOf ((allSlots.filter fun i => (s.dev.surface i).state == .closing).length)])))
        ∧ ∀ i : Slot, surfaces[i] =
          match (s.dev.surface i).state with
          | .free => s.dev.surface i
          | .releasing => s.dev.surface i
          | .closing => { s.dev.surface i with pendingLook := (s.dev.surface i).committed, state := .live }
          | _ => { s.dev.surface i with pendingLook := (s.dev.surface i).committed })

/-- QUERY_STAGING (R59), QUERY_ORDER (R67) and QUERY_PANEL (R90) answer the words of Table 11-10 and change nothing:
their codes, one flag for each slot, and four places to a word, the lowest in bits 3:0. -/
def Obligations.QueriesChangeNothing : Prop :=
  (∀ (s : State) (low : Byte), s.dev.takesCommands = true → declares low 1 = true →
      exec (.queryStaging low []) s
        = .next (s.withDevice (s.dev.answering 0x15 (okReply
            [ flagAt (s.dev.staging.state == .armed) 0 ||| flagAt s.dev.staging.dirty 1
                ||| bitsAt s.dev.staging.order.length 4
                ||| bitsAt (allSlots.filter fun i => (s.dev.surface i).state == .closing).length 8
            , s.dev.staging.batch, s.dev.staging.background, s.dev.layers.background
            , slotFlags fun i => ((s.dev.surface i).state == .dormant || (s.dev.surface i).state == .live)
                && (s.dev.surface i).pendingLook != (s.dev.surface i).committed
            , slotFlags fun i => (s.dev.surface i).state == .closing ])))
      ∧ exec (.queryOrder low []) s
        = .next (s.withDevice (s.dev.answering 0x1A (okReply
            [ bitsAt s.dev.staging.order.length 0 ||| bitsAt s.dev.layers.order.length 4
            , fourPlaces s.dev.staging.order 0, fourPlaces s.dev.staging.order 4
            , fourPlaces s.dev.layers.order 0, fourPlaces s.dev.layers.order 4 ])))
      ∧ exec (.queryPanel low []) s
        = .next (s.withDevice (s.dev.answering 0x23 (okReply
            [ bitsAt (scanStateCode s.dev.scan.state) 0 ||| bitsAt (s.dev.scan.setup.divider % 16) 2
                ||| bitsAt (polarityCode s.dev.scan.setup.hPolarity) 6
                ||| bitsAt (polarityCode s.dev.scan.setup.vPolarity) 7 ||| bitsAt s.dev.scan.setup.vBlank 8
            , wordOf s.dev.scan.setup.activeWidth, wordOf s.dev.scan.setup.activeHeight
            , wordOf s.dev.scan.setup.hBlank, s.dev.scan.frameNumber.extractLsb' 0 16
            , s.dev.scan.frameNumber.extractLsb' 16 16 ]))))
  ∧ [ScanState.stopped, .running, .draining].map scanStateCode = [0, 1, 2]
  ∧ [Polarity.activeLow, .activeHigh].map polarityCode = [0, 1]
  ∧ (∀ (test : Slot → Bool) (i : Slot), (slotFlags test).getLsbD i.val = test i)
  ∧ ∀ (order : List Handle) (first k : Nat), k < 4 →
    fieldOf (fourPlaces order first) (4 * k) 4 = ((order[first + k]?).map fun h => h.slot.val).getD 0

/-- PLACE (R64, R65): its refusals in their order; otherwise the handle leaves its place and stands at the top, at
the bottom, or directly after or before the anchor, and its place is answered. UNPLACE (R66): refusals; otherwise
the handle leaves the pending order and the entries above it move down. Both set the dirty flag and change nothing
else. -/
def Obligations.PlaceAndUnplaceResult : Prop :=
  (∀ (s : State) (low : Byte) (hw ww aw : Word) (h a : Handle) (rest : List Handle), s.dev.takesCommands = true →
      declares low 4 = true → s.dev.staging.state = .opened → h = handleOf hw → a = handleOf aw →
      rest = s.dev.staging.order.erase h →
      (∀ status, s.dev.handleRefusal h = some status →
        exec (.place low [hw, ww, aw]) s = .next (s.withDevice (s.dev.answering 0x18 (refusal status))))
      ∧ (s.dev.handleRefusal h = none → 3 < ww.toNat →
        exec (.place low [hw, ww, aw]) s = .next (s.withDevice (s.dev.answering 0x18 (refusal .badParam))))
      ∧ (s.dev.handleRefusal h = none → (ww = 2 ∨ ww = 3) → (a = h ∨ a ∉ s.dev.staging.order) →
        exec (.place low [hw, ww, aw]) s = .next (s.withDevice (s.dev.answering 0x18 (refusal .badParam))))
      ∧ (s.dev.handleRefusal h = none → ww.toNat ≤ 3 →
        (ww = 2 ∨ ww = 3 → a ≠ h ∧ a ∈ s.dev.staging.order) → h ∉ s.dev.staging.order →
        8 ≤ s.dev.staging.order.length →
        exec (.place low [hw, ww, aw]) s = .next (s.withDevice (s.dev.answering 0x18 (refusal .listFull))))
      ∧ (s.dev.handleRefusal h = none → s.dev.staging.order.Nodup →
        (h ∈ s.dev.staging.order ∨ s.dev.staging.order.length < 8) →
        ∀ (below above : List Handle),
          (ww = 0 → below = rest → above = [] →
            exec (.place low [hw, ww, aw]) s = .next (s.withDevice (Device.answering
              { s.dev with staging := { s.dev.staging with order := below ++ h :: above, dirty := true } }
              0x18 (okReply [wordOf below.length]))))
          ∧ (ww = 1 → below = [] → above = rest →
            exec (.place low [hw, ww, aw]) s = .next (s.withDevice (Device.answering
              { s.dev with staging := { s.dev.staging with order := below ++ h :: above, dirty := true } }
              0x18 (okReply [wordOf below.length]))))
          ∧ (ww = 2 → a ≠ h → (∃ l, below = l ++ [a] ∧ rest = below ++ above) →
            exec (.place low [hw, ww, aw]) s = .next (s.withDevice (Device.answering
              { s.dev with staging := { s.dev.staging with order := below ++ h :: above, dirty := true } }
              0x18 (okReply [wordOf below.length]))))
          ∧ (ww = 3 → a ≠ h → (∃ l, above = a :: l ∧ rest = below ++ above) →
            exec (.place low [hw, ww, aw]) s = .next (s.withDevice (Device.answering
              { s.dev with staging := { s.dev.staging with order := below ++ h :: above, dirty := true } }
              0x18 (okReply [wordOf below.length]))))))
  ∧ (∀ (s : State) (low : Byte) (hw : Word), s.dev.takesCommands = true → declares low 2 = true →
      s.dev.staging.state = .opened →
      (∀ status, s.dev.handleRefusal (handleOf hw) = some status →
        exec (.unplace low [hw]) s = .next (s.withDevice (s.dev.answering 0x19 (refusal status))))
      ∧ (s.dev.handleRefusal (handleOf hw) = none → handleOf hw ∉ s.dev.staging.order →
        exec (.unplace low [hw]) s = .next (s.withDevice (s.dev.answering 0x19 (refusal .badState))))
      ∧ (s.dev.handleRefusal (handleOf hw) = none → ∀ below above, handleOf hw ∉ below →
        s.dev.staging.order = below ++ handleOf hw :: above →
        exec (.unplace low [hw]) s = .next (s.withDevice (Device.answering
          { s.dev with staging := { s.dev.staging with order := below ++ above, dirty := true } }
          0x19 (okReply [])))))

/-! ## Apply points -/

/-- The batch apply (R50 to R54): refused for room it latches COMPL_WAIT and changes nothing else; otherwise pending
order, background and appearances become committed, each surface takes the state of Table 3-2, the batch is counted,
its APPLIED record placed, and the staging set is OPEN and clean. -/
def Obligations.BatchApplies : Prop :=
  ∀ (d : Device) (idle : Bool),
    (d.staging.state = .opened → d.offerBatch idle = d)
    ∧ (d.staging.state = .armed → 16 ≤ d.control.completions.length →
      d.offerBatch idle = { d with events := { d.events with latched := d.events.latched ||| 0x0008 } })
    ∧ (d.staging.state = .armed → d.control.completions.length < 16 →
      ∃ surfaces : Vector Surface 16,
        d.offerBatch idle =
          { d with
            surfaces := surfaces
            layers := ⟨d.staging.order, d.staging.background⟩
            staging := { d.staging with state := .opened, dirty := false, batch := d.staging.batch + 1 }
            control := { d.control with
              completions := d.control.completions
                ++ [.applied (d.staging.batch + 1) d.scan.frameNumber idle] } }
        ∧ ∀ i : Slot, surfaces[i] =
          match (d.surface i).state with
          | .free => d.surface i
          | .releasing => d.surface i
          | .closing => { d.surface i with state := .releasing }
          | _ =>
            { d.surface i with
              committed := (d.surface i).pendingLook
              state := if (⟨i, (d.surface i).generation⟩ : Handle) ∈ d.staging.order then .live else .dormant })

/-- The examination of a slot for a flip (R99 to R102): a POSTED surface without jobs flips when there is room, its
notice tag the committed tag of that moment, and its stalled port is examined (`examineStall`, which WritableBuffers
states). The examination of a RELEASING slot (R18 to R20): without jobs and with room its slabs return, its RELEASED
record is placed and it is FREE with its generation kept (R5); that the other fields of a FREE slot stand at their
reset values (`Surface.freed`) is the model's choice (log 9). Without room COMPL_WAIT is latched; every other slot is
left. -/
def Obligations.FlipAndReleaseTaken : Prop :=
  (∀ (d : Device) (idle : Bool) (i : Slot),
      (((d.surface i).flip ≠ .posted ∨ (d.engine.jobs.countP fun j => j.handle == d.handleAt i) ≠ 0) →
        d.examineFlip idle i = d)
      ∧ ((d.surface i).flip = .posted → (d.engine.jobs.countP fun j => j.handle == d.handleAt i) = 0 →
        (16 ≤ d.control.completions.length →
          d.examineFlip idle i = { d with events := { d.events with latched := d.events.latched ||| 0x0008 } })
        ∧ (d.control.completions.length < 16 →
          d.examineFlip idle i = Device.examineStall
            { d with
              surfaces := d.surfaces.set i
                { d.surface i with
                  front := if (d.surface i).front = .a then .b else .a
                  flipCount := (d.surface i).flipCount + 1
                  noticeTag := (d.surface i).committed.tag
                  flip := .shown }
              control := { d.control with
                completions := d.control.completions
                  ++ [.flip (d.handleAt i) (d.surface i).committed.tag ((d.surface i).flipCount + 1)
                    (d.scan.frameNumber.extractLsb' 0 16) idle] } }
            (d.handleAt i))))
  ∧ (∀ (d : Device) (i : Slot),
      (((d.surface i).state ≠ .releasing ∨ (d.engine.jobs.countP fun j => j.handle == d.handleAt i) ≠ 0) →
        d.examineRelease i = d)
      ∧ ((d.surface i).state = .releasing → (d.engine.jobs.countP fun j => j.handle == d.handleAt i) = 0 →
        (16 ≤ d.control.completions.length →
          d.examineRelease i = { d with events := { d.events with latched := d.events.latched ||| 0x0008 } })
        ∧ (d.control.completions.length < 16 →
          ∃ pool : List Slab,
            d.examineRelease i =
              { d with
                freeSlabs := pool
                surfaces := d.surfaces.set i (Surface.freed (d.surface i).generation)
                control := { d.control with
                  completions := d.control.completions
                    ++ [.released (d.handleAt i) (d.surface i).heldSlabs.length] } }
            ∧ ∀ k, k ∈ pool ↔ k ∈ (d.surface i).heldSlabs ∨ k ∈ d.freeSlabs)))
  ∧ (∀ g : Byte, (Surface.freed g).state = .free ∧ (Surface.freed g).generation = g ∧ (Surface.freed g).heldSlabs = [])
  ∧ ∀ (d : Device) (i : Slot), d.handleAt i = ⟨i, (d.surface i).generation⟩

/-- An apply point (R50, R55, R88, R99): the batch apply when it can be taken, then the examinations of the slots that
it moved to RELEASING, in slot order, then the flip examinations of all sixteen slots, in slot order. Its records
(R55, R166): APPLIED when a batch is applied, then RELEASED records in slot order, then FLIP records in slot order,
behind the records that stood there. While STOPPED an idle apply point is one with the idle flag set; in the other
states none is offered (R88). -/
def Obligations.ApplyPointOrder : Prop :=
  allSlots = List.finRange 16
  ∧ ∀ (d : Device) (idle : Bool),
    (d.takesBatch = true ↔ d.staging.state = .armed ∧ d.control.completions.length < 16)
    ∧ (∀ moved : List Slot,
      (d.takesBatch = true → moved = allSlots.filter fun i => (d.surface i).state == .closing) →
      (d.takesBatch = false → moved = []) →
      d.applyPoint idle = allSlots.foldl (fun e i => e.examineFlip idle i)
        (moved.foldl (fun e i => e.examineRelease i) (d.offerBatch idle)))
    ∧ (d.scan.state = .stopped → d.offerIdle = d.applyPoint true) ∧ (d.scan.state ≠ .stopped → d.offerIdle = d)
    ∧ ∃ (released flipped : List (Slot × CompletionRecord)),
      (d.applyPoint idle).control.completions
        = d.control.completions
          ++ (if d.takesBatch then [.applied (d.staging.batch + 1) d.scan.frameNumber idle] else [])
          ++ released.map Prod.snd ++ flipped.map Prod.snd
      ∧ (released.map Prod.fst).Pairwise (· < ·) ∧ (flipped.map Prod.fst).Pairwise (· < ·)
      ∧ (∀ e ∈ released, ∃ g n, e.2 = .released ⟨e.1, g⟩ n)
      ∧ ∀ e ∈ flipped, ∃ g tag count low, e.2 = .flip ⟨e.1, g⟩ tag count low idle

/-! ## Panel -/

/-- PANEL_SETUP (R78), PANEL_START (R81) and PANEL_STOP (R83): their refusals and their effects, and nothing else
changed. -/
def Obligations.PanelCommands : Prop :=
  ∀ (s : State) (low : Byte), s.dev.takesCommands = true →
    (declares low 6 = true → ∀ aw ah hb vb tw : Word,
      (s.dev.scan.state ≠ .stopped →
        exec (.panelSetup low [aw, ah, hb, vb, tw]) s
          = .next (s.withDevice (s.dev.answering 0x20 (refusal .badState))))
      ∧ (s.dev.scan.state = .stopped →
        (aw.toNat < 16 ∨ 1024 < aw.toNat ∨ ah.toNat < 16 ∨ 768 < ah.toNat ∨ hb.toNat < 8 ∨ 1023 < hb.toNat
          ∨ vb.toNat < 1 ∨ 255 < vb.toNat ∨ decodeTiming tw = none) →
        exec (.panelSetup low [aw, ah, hb, vb, tw]) s
          = .next (s.withDevice (s.dev.answering 0x20 (refusal .badParam))))
      ∧ (s.dev.scan.state = .stopped → 16 ≤ aw.toNat → aw.toNat ≤ 1024 → 16 ≤ ah.toNat → ah.toNat ≤ 768 →
        8 ≤ hb.toNat → hb.toNat ≤ 1023 → 1 ≤ vb.toNat → vb.toNat ≤ 255 → ∀ t, decodeTiming tw = some t →
        exec (.panelSetup low [aw, ah, hb, vb, tw]) s = .next (s.withDevice (Device.answering
          { s.dev with
            scan := { s.dev.scan with
              setup := ⟨aw.toNat, ah.toNat, hb.toNat, vb.toNat, t.divider, t.hPolarity, t.vPolarity⟩ } }
          0x20 (okReply [])))))
    ∧ (declares low 1 = true →
      ((s.dev.scan.state = .running ∨ s.dev.scan.state = .stopped ∧ s.dev.scan.setup.activeWidth = 0) →
        exec (.panelStart low []) s = .next (s.withDevice (s.dev.answering 0x21 (refusal .badState))))
      ∧ (s.dev.scan.state = .stopped → s.dev.scan.setup.activeWidth ≠ 0 →
        exec (.panelStart low []) s = .next (s.withDevice (Device.answering
          { s.dev with
            scan := { s.dev.scan with
              state := .running, position := some (.leadIn 0 0), driven := 0, composing := 0, reads := [],
              opening := false } }
          0x21 (okReply [0]))))
      ∧ (s.dev.scan.state = .draining →
        exec (.panelStart low []) s = .next (s.withDevice (Device.answering
          { s.dev with scan := { s.dev.scan with state := .running } } 0x21 (okReply [1]))))
      ∧ (s.dev.scan.state = .running →
        exec (.panelStop low []) s = .next (s.withDevice (Device.answering
          { s.dev with scan := { s.dev.scan with state := .draining } } 0x22 (okReply [0]))))
      ∧ (s.dev.scan.state = .draining →
        exec (.panelStop low []) s = .next (s.withDevice (s.dev.answering 0x22 (okReply [1]))))
      ∧ (s.dev.scan.state = .stopped →
        exec (.panelStop low []) s = .next (s.withDevice (s.dev.answering 0x22 (refusal .badState)))))

/-- The periods of the lead-in and of a frame (R79, R82). PIXEL_PERIOD (R69, R72, R79): once every read has completed,
the output goes on to the next period: an active one drives the pixel just composed, and the composition of the pixel
after it begins from the committed background with the reads it needs. No read is raised before the active region
(R73, R82): panel pixel (0, 0) is composed in its own period (the model's choice against R34, R72 and R84, log 7); the
moment of the reads within a period is the model's choice too (log 24). While STOPPED, and at the frame boundary,
PIXEL_PERIOD does not occur (log 2, log 18). FRAME_BOUNDARY (R84, R85): at the end of the last active period of line
AH - 1 the frame number advances, FRAME is latched and an apply point is handed over with the idle flag clear; in
DRAINING the scan engine then stops and PANEL_STOPPED is latched, otherwise the output goes on with the first blank
period of that line (log 18), and the heads released execute (log 22). At any other position the event does not occur
(log 2). The levels of the panel output (R80), with the sync periods counted from the first blank one of a line (log
8): an active period carries its pixel, panel pixel (0, 0) the one that its reads compose (log 7). -/
def Obligations.FramesScanned : Prop :=
  (∀ (p : PanelSetup) (line k : Nat),
      (k + 1 < p.activeWidth + p.hBlank →
        p.next (.leadIn line k) = .leadIn line (k + 1) ∧ p.next (.frame line k) = .frame line (k + 1))
      ∧ (p.activeWidth + p.hBlank ≤ k + 1 →
        (line + 1 < p.vBlank → p.next (.leadIn line k) = .leadIn (line + 1) 0)
        ∧ (p.vBlank ≤ line + 1 → p.next (.leadIn line k) = .frame 0 0)
        ∧ (line + 1 < p.activeHeight + p.vBlank → p.next (.frame line k) = .frame (line + 1) 0)
        ∧ (p.activeHeight + p.vBlank ≤ line + 1 → p.next (.frame line k) = .frame 0 0))
      ∧ p.activeAt (.leadIn line k) = false
      ∧ (p.activeAt (.frame line k) = true ↔ line < p.activeHeight ∧ k < p.activeWidth))
  ∧ (∀ s : State,
      (s.dev.scan.position = none
        ∨ s.dev.scan.position = some (.frame (s.dev.scan.setup.activeHeight - 1) (s.dev.scan.setup.activeWidth - 1))) →
      exec .pixelPeriod s = .next s)
  ∧ (∀ (s : State) (p q : ScanPos), s.dev.scan.position = some p →
      p ≠ .frame (s.dev.scan.setup.activeHeight - 1) (s.dev.scan.setup.activeWidth - 1) →
      q = s.dev.scan.setup.next p →
      (s.dev.scan.reads ≠ [] → exec .pixelPeriod s = .next s)
      ∧ ∀ (background : ScanPos → Pixel) (reads : ScanPos → List ScanRead),
        (∀ x, background x = if s.dev.scan.setup.activeAt x then s.dev.layers.background else 0) →
        (∀ line k, reads (.leadIn line k) = []
          ∧ reads (.frame line k) = if s.dev.scan.setup.activeAt (.frame line k) then s.dev.panelReads k line else []) →
        s.dev.scan.reads = [] →
        (q ≠ .frame 0 0 → s.dev.scan.setup.next q ≠ .frame 0 0 →
          exec .pixelPeriod s = .next (s.withDevice
            { s.dev with
              scan := { s.dev.scan with
                position := some q
                driven := if s.dev.scan.setup.activeAt q then s.dev.scan.composing else 0
                composing := background (s.dev.scan.setup.next q)
                reads := reads (s.dev.scan.setup.next q) } }))
        ∧ (q ≠ .frame 0 0 → s.dev.scan.setup.next q = .frame 0 0 →
          exec .pixelPeriod s = .next (s.withDevice
            { s.dev with
              scan := { s.dev.scan with
                position := some q
                driven := if s.dev.scan.setup.activeAt q then s.dev.scan.composing else 0
                composing := 0
                reads := [] } }))
        ∧ (q = .frame 0 0 → reads q ≠ [] →
          exec .pixelPeriod s = .next (s.withDevice
            { s.dev with
              scan := { s.dev.scan with
                position := some q
                driven := 0
                composing := background q
                reads := reads q
                opening := true } }))
        ∧ (q = .frame 0 0 → reads q = [] → s.dev.scan.setup.next q ≠ .frame 0 0 →
          exec .pixelPeriod s = .next (s.withDevice
            { s.dev with
              scan := { s.dev.scan with
                position := some q
                driven := background q
                composing := background (s.dev.scan.setup.next q)
                reads := reads (s.dev.scan.setup.next q)
                opening := false } })))
  ∧ (∀ (s : State) (applied : Device),
      applied = Device.applyPoint
        { s.dev with
          scan := { s.dev.scan with frameNumber := s.dev.scan.frameNumber + 1 }
          events := { s.dev.events with latched := s.dev.events.latched ||| 0x0004 } } false →
      (s.dev.scan.position
          = some (.frame (s.dev.scan.setup.activeHeight - 1) (s.dev.scan.setup.activeWidth - 1)) →
        (s.dev.scan.state = .draining →
          exec .frameBoundary s = .next (s.withDevice (Device.settle
            { applied with
              scan := { applied.scan with
                state := .stopped, position := none, driven := 0, composing := 0, reads := [], opening := false }
              events := { applied.events with latched := applied.events.latched ||| 0x0400 } })))
        ∧ (s.dev.scan.state ≠ .draining →
          exec .frameBoundary s = .next (s.withDevice (Device.settle
            (applied.enterPeriod
              (.frame (s.dev.scan.setup.activeHeight - 1) s.dev.scan.setup.activeWidth)))))
        ∧ (s.dev.scan.state ≠ .draining → 1 ≤ s.dev.scan.setup.activeWidth → 2 ≤ s.dev.scan.setup.hBlank →
          exec .frameBoundary s = .next (s.withDevice (Device.settle
            { applied with
              scan := { applied.scan with
                position := some (.frame (s.dev.scan.setup.activeHeight - 1) s.dev.scan.setup.activeWidth)
                driven := 0
                composing := 0
                reads := [] } }))))
      ∧ (s.dev.scan.position
          ≠ some (.frame (s.dev.scan.setup.activeHeight - 1) (s.dev.scan.setup.activeWidth - 1)) →
        exec .frameBoundary s = .next s))
  ∧ ∀ (d : Device) (level : Polarity → Bool → Bool),
    (∀ active, level .activeHigh active = active ∧ level .activeLow active = !active) →
    (d.scan.position = none →
      d.panelLevels
        = ⟨false, false, 0, level d.scan.setup.hPolarity false, level d.scan.setup.vPolarity false⟩)
    ∧ ∀ (line k : Nat) (hSync : Bool),
      (hSync = true ↔ d.scan.setup.activeWidth + 2 ≤ k ∧ k ≤ d.scan.setup.activeWidth + 5) →
      (d.scan.position = some (.leadIn line k) →
        d.panelLevels
          = ⟨true, false, 0, level d.scan.setup.hPolarity hSync, level d.scan.setup.vPolarity (line == 0)⟩)
      ∧ (d.scan.position = some (.frame line k) →
        (line < d.scan.setup.activeHeight → k < d.scan.setup.activeWidth →
          d.panelLevels
            = ⟨true, true,
                if d.scan.opening then
                  d.scan.reads.foldl (fun below r => blend r.opacity (d.store.readPixel r.pos) below) d.scan.composing
                else d.scan.driven,
                level d.scan.setup.hPolarity false, level d.scan.setup.vPolarity false⟩)
        ∧ ((d.scan.setup.activeHeight ≤ line ∨ d.scan.setup.activeWidth ≤ k) →
          d.panelLevels = ⟨true, false, 0, level d.scan.setup.hPolarity hSync,
            level d.scan.setup.vPolarity (line == d.scan.setup.activeHeight)⟩))

/-- The blend (R71): each channel is (o × t + (16 - o) × b) div 16; at opacity 16 the result is t, at opacity 0 it
would be b. -/
def Obligations.BlendPerChannel : Prop :=
  ∀ (o : Nat) (t b : Pixel), o ≤ 16 →
    fieldOf (blend o t b) 11 5 = (o * fieldOf t 11 5 + (16 - o) * fieldOf b 11 5) / 16
    ∧ fieldOf (blend o t b) 5 6 = (o * fieldOf t 5 6 + (16 - o) * fieldOf b 5 6) / 16
    ∧ fieldOf (blend o t b) 0 5 = (o * fieldOf t 0 5 + (16 - o) * fieldOf b 0 5) / 16
    ∧ fieldOf (blend o t b) 11 5 ≤ 31 ∧ fieldOf (blend o t b) 5 6 ≤ 63 ∧ fieldOf (blend o t b) 0 5 ≤ 31
    ∧ blend 16 t b = t ∧ blend 0 t b = b

/-- The reads of a panel pixel (R70, R72): one for each surface of the committed order, from place 0 upward, that
covers the pixel and whose committed opacity is not 0, of its front buffer's pixel (X - x, Y - y). SCAN_READ_COMPLETE
(R34, R69, R71): the first read's pixel is blended over the running value; the last read of panel pixel (0, 0),
composed in its own period, completes it and begins the pixel after it (log 7). The rotation pointer and everything
else stay, and the panel output never changes by it: the pixel of a period is the same throughout (R80). Without a
read the event does not occur (log 2). -/
def Obligations.PanelPixelComposed : Prop :=
  (∀ (d : Device) (px py : Nat) (h : Handle) (r : Surface), r = d.surface h.slot →
      ((r.committed.x ≤ px ∧ px ≤ r.committed.x + r.width - 1 ∧ 1 ≤ r.width
          ∧ r.committed.y ≤ py ∧ py ≤ r.committed.y + r.height - 1 ∧ 1 ≤ r.height ∧ r.committed.opacity ≠ 0) →
        d.layerRead px py h
          = some ⟨r.pixelAt r.front (px - r.committed.x) (py - r.committed.y), r.committed.opacity⟩)
      ∧ ((px < r.committed.x ∨ r.committed.x + r.width ≤ px ∨ py < r.committed.y ∨ r.committed.y + r.height ≤ py
          ∨ r.committed.opacity = 0) → d.layerRead px py h = none)
      ∧ d.panelReads px py = d.layers.order.filterMap (d.layerRead px py))
  ∧ (∀ s : State,
      (s.dev.scan.reads = [] → exec .scanReadComplete s = .next s)
      ∧ ∀ r rest value, s.dev.scan.reads = r :: rest →
        value = blend r.opacity (s.dev.store.readPixel r.pos) s.dev.scan.composing →
        ((s.dev.scan.opening = false ∨ rest ≠ []) →
          exec .scanReadComplete s = .next (s.withDevice
            { s.dev with scan := { s.dev.scan with composing := value, reads := rest } }))
        ∧ (s.dev.scan.opening = true → rest = [] → ∀ line k, s.dev.scan.setup.next (.frame 0 0) = .frame line k →
          (line, k) ≠ (0, 0) →
          exec .scanReadComplete s = .next (s.withDevice
            { s.dev with
              scan := { s.dev.scan with
                driven := value
                opening := false
                composing := if s.dev.scan.setup.activeAt (.frame line k) then s.dev.layers.background else 0
                reads :=
                  if s.dev.scan.setup.activeAt (.frame line k) then s.dev.panelReads k line else [] } })))
  ∧ ∀ s : State, ∃ d : Device, exec .scanReadComplete s = .next (s.withDevice d) ∧ d.panelLevels = s.dev.panelLevels

/-! ## Posts and acknowledgements -/

/-- POST (R96, R97): its refusals in their order; otherwise NONE becomes POSTED and SHOWN becomes SHOWN_HELD, the idle
apply point of STOPPED follows, and the answer is the flip state left. A surface is under a burst exactly when a port
bound to it is in STALLED or PIXELS; at most one is bound to it (R131). -/
def Obligations.PostResult : Prop :=
  (∀ (s : State) (low : Byte) (hw : Word) (h : Handle) (r : Surface), s.dev.takesCommands = true →
      declares low 2 = true → h = handleOf hw → r = s.dev.surface h.slot →
      (∀ status, s.dev.handleRefusal h = some status →
        exec (.post low [hw]) s = .next (s.withDevice (s.dev.answering 0x28 (refusal status))))
      ∧ (s.dev.handleRefusal h = none → r.buffering = .single →
        exec (.post low [hw]) s = .next (s.withDevice (s.dev.answering 0x28 (refusal .badState))))
      ∧ (s.dev.handleRefusal h = none → r.buffering = .double → s.dev.underBurst h = true →
        exec (.post low [hw]) s = .next (s.withDevice (s.dev.answering 0x28 (refusal .busy))))
      ∧ (s.dev.handleRefusal h = none → r.buffering = .double → s.dev.underBurst h = false →
        (r.flip = .posted ∨ r.flip = .shownHeld) →
        exec (.post low [hw]) s = .next (s.withDevice (s.dev.answering 0x28 (refusal .badState))))
      ∧ (s.dev.handleRefusal h = none → r.buffering = .double → s.dev.underBurst h = false →
        (r.flip = .none ∨ r.flip = .shown) →
        ∀ posted : Device,
          posted = { s.dev with
            surfaces := s.dev.surfaces.set h.slot { r with flip := if r.flip = .none then .posted else .shownHeld } } →
          (s.dev.scan.state ≠ .stopped →
            exec (.post low [hw]) s = .next (s.withDevice (posted.answering 0x28
              (okReply [if r.flip = .none then 1 else 3]))))
          ∧ (s.dev.scan.state = .stopped →
            exec (.post low [hw]) s = .next (s.withDevice ((posted.applyPoint true).answering 0x28
              (okReply [wordOf (flipCode ((posted.applyPoint true).surface h.slot).flip)]))))))
  ∧ ∀ (d : Device) (h : Handle), d.bindingLaw →
    (d.underBurst h = true
      ↔ ∃ n, (d.port n).binding = some h ∧ ((d.port n).state = .stalled ∨ (d.port n).state = .pixels))

/-- An acknowledgement that matches (R103): every SHOWN or SHOWN_HELD surface with that notice tag is released, SHOWN
to NONE and SHOWN_HELD to POSTED; while STOPPED an idle apply point follows when one became POSTED (R88). -/
def Obligations.AckReleases : Prop :=
  ∀ (s : State) (t : Word), s.dev.pins.resetN = true →
    (∃ i, ((s.dev.surface i).flip = .shown ∨ (s.dev.surface i).flip = .shownHeld)
      ∧ (s.dev.surface i).noticeTag = t.toNat) →
    ∃ surfaces : Vector Surface 16, ∀ acked : Device,
      acked = { s.dev with pins := { s.dev.pins with dataOut := none }, surfaces := surfaces } →
      (∀ i : Slot, surfaces[i] =
        if (s.dev.surface i).noticeTag = t.toNat ∧ (s.dev.surface i).flip = .shown then
          { s.dev.surface i with flip := .none }
        else if (s.dev.surface i).noticeTag = t.toNat ∧ (s.dev.surface i).flip = .shownHeld then
          { s.dev.surface i with flip := .posted }
        else s.dev.surface i)
      ∧ ((s.dev.scan.state ≠ .stopped
          ∨ ∀ i, ¬ ((s.dev.surface i).noticeTag = t.toNat ∧ (s.dev.surface i).flip = .shownHeld)) →
        exec (.ack t) s = .next (s.withDevice acked.settle))
      ∧ (s.dev.scan.state = .stopped →
        (∃ i, (s.dev.surface i).noticeTag = t.toNat ∧ (s.dev.surface i).flip = .shownHeld) →
        exec (.ack t) s = .next (s.withDevice (acked.applyPoint true).settle))

/-- An acknowledgement that releases no surface latches STRAY_ACK and has no other effect (R104). A value above 63 is
one, as no notice tag is above 63: the tags keep within 0 to 63 (R93, Table 1-1) right after reset and through every
step. -/
def Obligations.StrayAckLatched : Prop :=
  (∀ (s : State) (t : Word), s.dev.pins.resetN = true → s.dev.headsWait →
    ((∀ i, ((s.dev.surface i).flip = .shown ∨ (s.dev.surface i).flip = .shownHeld) →
        (s.dev.surface i).noticeTag ≠ t.toNat)
      ∨ ((∀ i, (s.dev.surface i).noticeTag ≤ 63) ∧ 63 < t.toNat)) →
    exec (.ack t) s = .next (s.withDevice
      { s.dev with
        pins := { s.dev.pins with dataOut := none }
        events := { s.dev.events with latched := s.dev.events.latched ||| 0x0020 } }))
  ∧ (∀ d : Device, d.tagLaw → ∀ i, (d.surface i).noticeTag ≤ 63)
  ∧ State.reset.dev.tagLaw
  ∧ ∀ s t : State, s.dev.tagLaw → step s = .next t → t.dev.tagLaw

/-! ## Ports -/

/-- BIND (R132): its refusals in their order; otherwise the port's binding becomes the handle. UNBIND (R133, R134) and
PORT_CONFIG (R136): a port number above 3 is refused; an unbound port is left as it is; a bound port is unbound, and a
header or burst in progress on it ends with ABANDONED, its write that waits withdrawn, or completed when its grant was
taken first (R35, free value, log 3); PORT_CONFIG changes the setting alone. Nothing else changes. The bound port of a
surface is the port whose binding names it (R3, log 12). -/
def Obligations.BindingsChange : Prop :=
  (∀ (s : State) (low : Byte) (pw hw : Word), s.dev.takesCommands = true → declares low 3 = true →
      (∀ status, s.dev.handleRefusal (handleOf hw) = some status →
        exec (.bind low [pw, hw]) s = .next (s.withDevice (s.dev.answering 0x30 (refusal status))))
      ∧ (s.dev.handleRefusal (handleOf hw) = none → 3 < pw.toNat →
        exec (.bind low [pw, hw]) s = .next (s.withDevice (s.dev.answering 0x30 (refusal .badParam))))
      ∧ (s.dev.handleRefusal (handleOf hw) = none → ∀ n : PortNum, pw.toNat = n.val →
        (((s.dev.port n).state = .header ∨ (s.dev.port n).state = .stalled ∨ (s.dev.port n).state = .pixels
            ∨ ∃ m, m ≠ n ∧ s.dev.boundPort (handleOf hw) = some m) →
          exec (.bind low [pw, hw]) s = .next (s.withDevice (s.dev.answering 0x30 (refusal .busy))))
        ∧ (((s.dev.port n).state = .idle ∨ (s.dev.port n).state = .discarding) →
          (s.dev.boundPort (handleOf hw) = none ∨ s.dev.boundPort (handleOf hw) = some n) →
          exec (.bind low [pw, hw]) s = .next (s.withDevice (Device.answering
            { s.dev with ports := s.dev.ports.set n { s.dev.port n with binding := some (handleOf hw) } }
            0x30 (okReply []))))))
  ∧ (∀ (s : State) (low : Byte) (pw setting : Word), s.dev.takesCommands = true →
      (3 < pw.toNat →
        (declares low 2 = true →
          exec (.unbind low [pw]) s = .next (s.withDevice (s.dev.answering 0x31 (refusal .badParam))))
        ∧ (declares low 3 = true →
          exec (.portConfig low [pw, setting]) s
            = .next (s.withDevice (s.dev.answering 0x32 (refusal .badParam)))))
      ∧ ∀ n : PortNum, pw.toNat = n.val →
        (declares low 2 = true →
          ((s.dev.port n).binding = none →
            exec (.unbind low [pw]) s = .next (s.withDevice (s.dev.answering 0x31 (okReply []))))
          ∧ ((s.dev.port n).binding ≠ none →
            ((s.dev.port n).state = .idle ∨ (s.dev.port n).state = .discarding) →
            exec (.unbind low [pw]) s = .next (s.withDevice (Device.answering
              { s.dev with ports := s.dev.ports.set n { s.dev.port n with binding := none } } 0x31 (okReply []))))
          ∧ ((s.dev.port n).binding ≠ none →
            ((s.dev.port n).state = .header ∨ (s.dev.port n).state = .stalled ∨ (s.dev.port n).state = .pixels) →
            ∀ ended : Device,
            ended = { s.dev with
              ports := s.dev.ports.set n
                { s.dev.port n with
                  state := .discarding
                  binding := none
                  header := []
                  burst := none
                  writeRequest := none
                  interval := none
                  lastError := .abandoned
                  errorCount :=
                    if (s.dev.port n).errorCount < 255 then (s.dev.port n).errorCount + 1 else 255 }
              events := { s.dev.events with latched := s.dev.events.latched ||| bitsAt 1 (6 + n.val) } } →
            (((s.dev.port n).writeRequest = none ∨ s.dev.grants (.rotating (.port n)) = false) →
              exec (.unbind low [pw]) s = .next (s.withDevice (ended.answering 0x31 (okReply []))))
            ∧ ∀ r, (s.dev.port n).writeRequest = some r → s.dev.grants (.rotating (.port n)) = true →
              exec (.unbind low [pw]) s = .next (s.withDevice (Device.answering
                { ended with
                  freeIndex := s.dev.freeIndex + 1
                  store :=
                    if Config.grantTakenFirst s.dev.freeIndex then s.dev.store.writePixel r.pos r.pixel
                    else s.dev.store
                  rotation := if Config.grantTakenFirst s.dev.freeIndex then .port n else s.dev.rotation }
                0x31 (okReply [])))))
        ∧ (declares low 3 = true →
          exec (.portConfig low [pw, setting]) s = .next (s.withDevice (Device.answering
            { s.dev with ports := s.dev.ports.set n { s.dev.port n with timeoutSetting := setting } }
            0x32 (okReply [])))))
  ∧ ∀ (d : Device) (h : Handle),
    (d.boundPort h = none ↔ ∀ n, (d.port n).binding ≠ some h)
    ∧ (d.bindingLaw → ∀ n, d.boundPort h = some n ↔ (d.port n).binding = some h)

/-- MARKED_WORD before the fifth header word (R115, R116, R118, R127, R129): a port that is not ready takes nothing;
in IDLE or DISCARD the word begins a header; in HEADER it joins the one to three words there; in PIXELS the burst ends
with SHORT_BURST and the word begins a header. An idle interval begins, and nothing else changes. SnREADY is high as
Table 7-2 says: never while RESET_N is low, while the port is held, in STALLED, or with a write pending. -/
def Obligations.MarkedWordCollected : Prop :=
  ∀ (s : State) (n : PortNum) (w : Word) (p : Port), p = s.dev.port n →
    (s.dev.ready n = true ↔ s.dev.pins.resetN = true ∧ p.held = false
      ∧ (p.state = .idle ∨ p.state = .header ∨ p.state = .discarding ∨ p.state = .pixels ∧ p.writeRequest = none))
    ∧ (s.dev.ready n = false → exec (.markedWord n w) s = .next s)
    ∧ (s.dev.ready n = true → (p.state = .idle ∨ p.state = .discarding) →
      exec (.markedWord n w) s = .next (s.withDevice
        { s.dev with
          ports := s.dev.ports.set n
            { p with state := .header, header := [w], interval := some ⟨s.dev.timeBase, p.timeoutSetting⟩ } }))
    ∧ (s.dev.ready n = true → p.state = .header → 1 ≤ p.header.length → p.header.length ≤ 3 →
      exec (.markedWord n w) s = .next (s.withDevice
        { s.dev with
          ports := s.dev.ports.set n
            { p with header := p.header ++ [w], interval := some ⟨s.dev.timeBase, p.timeoutSetting⟩ } }))
    ∧ (s.dev.ready n = true → p.state = .pixels →
      exec (.markedWord n w) s = .next (s.withDevice
        { s.dev with
          ports := s.dev.ports.set n
            { p with
              state := .header
              header := [w]
              burst := none
              interval := some ⟨s.dev.timeBase, p.timeoutSetting⟩
              lastError := .shortBurst
              errorCount := if p.errorCount < 255 then p.errorCount + 1 else 255 }
          events := { s.dev.events with latched := s.dev.events.latched ||| bitsAt 1 (6 + n.val) } }))

/-- The fifth header word (R119, R120, R121): NOT_BOUND, BAD_HEADER or BAD_RECT in this order send the port to
DISCARD; an accepted header forms the burst record, and the port stands in PIXELS with its buffer fixed when the
target is writable, else in STALLED. -/
def Obligations.HeaderChecked : Prop :=
  ∀ (s : State) (n : PortNum) (p : Port) (flags u0 v0 width height : Word), p = s.dev.port n →
    s.dev.ready n = true → p.state = .header → p.header = [flags, u0, v0, width] →
    ∀ (refused : PortError → Device) (taken : Port → Device),
      (∀ cause, refused cause =
        { s.dev with
          ports := s.dev.ports.set n
            { p with
              state := .discarding
              header := []
              interval := none
              lastError := cause
              errorCount := if p.errorCount < 255 then p.errorCount + 1 else 255 }
          events := { s.dev.events with latched := s.dev.events.latched ||| bitsAt 1 (6 + n.val) } }) →
      (∀ q, taken q = { s.dev with ports := s.dev.ports.set n q }) →
      (p.binding = none → exec (.markedWord n height) s = .next (s.withDevice (refused .notBound)))
      ∧ ∀ (target : Handle) (r : Surface), p.binding = some target → r = s.dev.surface target.slot →
        ((flags &&& 0xFFFE ≠ 0 ∨ 1023 < u0.toNat ∨ 1023 < v0.toNat ∨ width.toNat < 1 ∨ 1024 < width.toNat
            ∨ height.toNat < 1 ∨ 1024 < height.toNat ∨ (flags.getLsbD 0 = true ∧ r.buffering = .single)) →
          exec (.markedWord n height) s = .next (s.withDevice (refused .badHeader)))
        ∧ (flags &&& 0xFFFE = 0 → u0.toNat ≤ 1023 → v0.toNat ≤ 1023 → 1 ≤ width.toNat → width.toNat ≤ 1024 →
          1 ≤ height.toNat → height.toNat ≤ 1024 → (flags.getLsbD 0 = true → r.buffering = .double) →
          ((r.sourceWidth < u0.toNat + width.toNat ∨ r.sourceHeight < v0.toNat + height.toNat) →
            exec (.markedWord n height) s = .next (s.withDevice (refused .badRect)))
          ∧ (u0.toNat + width.toNat ≤ r.sourceWidth → v0.toNat + height.toNat ≤ r.sourceHeight →
            (s.dev.writable target r.writeBuffer = false →
              exec (.markedWord n height) s = .next (s.withDevice (taken
                { p with
                  state := .stalled
                  header := []
                  interval := none
                  burst := some ⟨u0.toNat, v0.toNat, width.toNat, height.toNat, flags.getLsbD 0, target, none,
                    width.toNat * height.toNat⟩ })))
            ∧ (s.dev.writable target r.writeBuffer = true →
              exec (.markedWord n height) s = .next (s.withDevice (taken
                { p with
                  state := .pixels
                  header := []
                  interval := some ⟨s.dev.timeBase, p.timeoutSetting⟩
                  burst := some ⟨u0.toNat, v0.toNat, width.toNat, height.toNat, flags.getLsbD 0, target,
                    some r.writeBuffer, width.toNat * height.toNat⟩ })))))

/-- Writability (R94): buffer A of a SINGLE surface, the back buffer of a DOUBLE one in NONE or SHOWN, while no job
references it; the buffer that ports and jobs write is the one of these that can be writable. STALL_RESOLUTION (R121),
in the step of each event that can make the buffer writable: a port in STALLED whose target buffer is writable fixes
that buffer, enters PIXELS and begins an idle interval; every other port, and a surface without a port, is left as it
is. -/
def Obligations.WritableBuffers : Prop :=
  (∀ (d : Device) (h : Handle) (r : Surface) (side : BufferId), r = d.surface h.slot →
    (d.writable h side = true ↔
      (r.buffering = .single ∧ side = .a
        ∨ r.buffering = .double ∧ side ≠ r.front ∧ (r.flip = .none ∨ r.flip = .shown))
      ∧ ∀ j ∈ d.engine.jobs, j.handle = h → j.target ≠ side ∧ j.kind ≠ .copyForward side))
  ∧ (∀ r : Surface, r.writeBuffer = if r.buffering = .single then .a else if r.front = .a then .b else .a)
  ∧ ∀ (d : Device) (h : Handle),
    ((∀ n, (d.port n).binding ≠ some h) → d.examineStall h = d)
    ∧ ∀ (n : PortNum) (p : Port), p = d.port n → p.binding = some h → (∀ m, (d.port m).binding = some h → m = n) →
      (p.state ≠ .stalled → d.examineStall h = d)
      ∧ ∀ (b : Burst) (r : Surface) (buffer : BufferId), p.state = .stalled → p.burst = some b →
        r = d.surface b.target.slot →
        buffer = (if r.buffering = .single then .a else if r.front = .a then .b else .a) →
        (d.writable b.target buffer = false → d.examineStall h = d)
        ∧ (d.writable b.target buffer = true →
          d.examineStall h
            = { d with
                ports := d.ports.set n
                  { p with
                    state := .pixels
                    burst := some { b with buffer := some buffer }
                    interval := some ⟨d.timeBase, p.timeoutSetting⟩ } })

/-- UNMARKED_WORD (R115, R117, R124, R127): OVERRUN in IDLE, BAD_HEADER in HEADER, dropped without a trace in DISCARD;
in PIXELS the write of the word at the pixel that the orientation gives is requested, and an idle interval begins.
Nothing else changes. SnREADY (`ready`) is as MarkedWordCollected states. -/
def Obligations.UnmarkedWordTaken : Prop :=
  ∀ (s : State) (n : PortNum) (w : Word) (p : Port), p = s.dev.port n →
    (s.dev.ready n = false → exec (.unmarkedWord n w) s = .next s)
    ∧ (s.dev.ready n = true → p.state = .discarding → exec (.unmarkedWord n w) s = .next s)
    ∧ (s.dev.ready n = true → (p.state = .idle ∨ p.state = .header) →
      exec (.unmarkedWord n w) s = .next (s.withDevice
        { s.dev with
          ports := s.dev.ports.set n
            { p with
              state := .discarding
              header := []
              interval := none
              lastError := if p.state = .idle then .overrun else .badHeader
              errorCount := if p.errorCount < 255 then p.errorCount + 1 else 255 }
          events := { s.dev.events with latched := s.dev.events.latched ||| bitsAt 1 (6 + n.val) } }))
    ∧ (s.dev.ready n = true → p.state = .pixels → ∀ (b : Burst) (buffer : BufferId) (k u v : Nat) (r : Surface),
      p.burst = some b → b.buffer = some buffer → r = s.dev.surface b.target.slot →
      k = b.width * b.height - b.remaining → u = b.u0 + k % b.width → v = b.v0 + k / b.width →
      exec (.unmarkedWord n w) s = .next (s.withDevice
        { s.dev with
          ports := s.dev.ports.set n
            { p with
              writeRequest := some ⟨r.pixelAt buffer (r.mapPixel u v).1 (r.mapPixel u v).2, w⟩
              interval := some ⟨s.dev.timeBase, p.timeoutSetting⟩ } }))

/-- The orientation mapping (R123, Table 7-5): a source pixel lands inside the buffer, different source pixels at
different buffer pixels, the four corners of Table 7-5 as it says, and every mirrored orientation is its plain one
with u replaced. The width and height of the buffer change places in the quarter turns (R2). -/
def Obligations.OrientationMapping : Prop :=
  (∀ (r : Surface) (u v u' v' : Nat), u < r.sourceWidth → v < r.sourceHeight → u' < r.sourceWidth →
      v' < r.sourceHeight →
      (r.mapPixel u v).1 < r.width ∧ (r.mapPixel u v).2 < r.height
      ∧ (r.mapPixel u v = r.mapPixel u' v' → u = u' ∧ v = v')
      ∧ (r.orientation = .r0 → r.mapPixel u v = (u, v))
      ∧ (r.orientation = .r90 → r.mapPixel u v = (r.sourceHeight - 1 - v, u))
      ∧ (r.orientation = .r180 → r.mapPixel u v = (r.sourceWidth - 1 - u, r.sourceHeight - 1 - v))
      ∧ (r.orientation = .r270 → r.mapPixel u v = (v, r.sourceWidth - 1 - u))
      ∧ (r.orientation = .m0 → r.mapPixel u v = { r with orientation := .r0 }.mapPixel (r.sourceWidth - 1 - u) v)
      ∧ (r.orientation = .m90 → r.mapPixel u v = { r with orientation := .r90 }.mapPixel (r.sourceWidth - 1 - u) v)
      ∧ (r.orientation = .m180 → r.mapPixel u v = { r with orientation := .r180 }.mapPixel (r.sourceWidth - 1 - u) v)
      ∧ (r.orientation = .m270 → r.mapPixel u v = { r with orientation := .r270 }.mapPixel (r.sourceWidth - 1 - u) v))
  ∧ ∀ r : Surface,
    ((r.orientation = .r90 ∨ r.orientation = .r270 ∨ r.orientation = .m90 ∨ r.orientation = .m270) →
      r.width = r.sourceHeight ∧ r.height = r.sourceWidth)
    ∧ ((r.orientation = .r0 ∨ r.orientation = .r180 ∨ r.orientation = .m0 ∨ r.orientation = .m180) →
      r.width = r.sourceWidth ∧ r.height = r.sourceHeight)

/-- PIXEL_WRITE_COMPLETE (R32, R33, R34, R124, R125): the pixel is stored, write pending is cleared, one pixel fewer
remains and the pointer names the port; the last one counts the burst, delivers its post if asked, and leaves the port
IDLE. A post is delivered as R98 says, with the idle apply point of STOPPED (R88). Every other pixel reads as before.
Not granted, the event does not occur (log 2). -/
def Obligations.PixelWriteCompletes : Prop :=
  (∀ (s : State) (n : PortNum),
      (s.dev.grants (.rotating (.port n)) = false → exec (.pixelWriteComplete n) s = .next s)
      ∧ ∀ (p : Port) (b : Burst) (r : WriteRequest) (written : Port → Device), p = s.dev.port n →
        s.dev.grants (.rotating (.port n)) = true → p.burst = some b → p.writeRequest = some r →
        (∀ q, written q = { s.dev with
          store := s.dev.store.writePixel r.pos r.pixel
          rotation := .port n
          ports := s.dev.ports.set n q }) →
        (2 ≤ b.remaining →
          exec (.pixelWriteComplete n) s = .next (s.withDevice (Device.settle (written
            { p with writeRequest := none, burst := some { b with remaining := b.remaining - 1 } }))))
        ∧ (b.remaining ≤ 1 → b.postOnEnd = false →
          exec (.pixelWriteComplete n) s = .next (s.withDevice (Device.settle (written
            { p with
              state := .idle
              writeRequest := none
              burst := none
              interval := none
              burstsCompleted := p.burstsCompleted + 1 }))))
        ∧ (b.remaining ≤ 1 → b.postOnEnd = true → s.dev.scan.state ≠ .stopped →
          ∀ t : Surface, t = s.dev.surface b.target.slot → (t.flip = .none ∨ t.flip = .shown) →
          exec (.pixelWriteComplete n) s = .next (s.withDevice (Device.settle
            { written { p with
                state := .idle
                writeRequest := none
                burst := none
                interval := none
                burstsCompleted := p.burstsCompleted + 1 } with
              surfaces := s.dev.surfaces.set b.target.slot
                { t with flip := if t.flip = .none then .posted else .shownHeld } })))
        ∧ (b.remaining ≤ 1 → b.postOnEnd = true → s.dev.scan.state = .stopped →
          exec (.pixelWriteComplete n) s = .next (s.withDevice (Device.settle
            ((written
                { p with
                  writeRequest := none
                  burst := some { b with remaining := b.remaining - 1 }
                  burstsCompleted := p.burstsCompleted + 1 }).deliverPost b.target.slot |>.setPort n
              { ((written
                  { p with
                    writeRequest := none
                    burst := some { b with remaining := b.remaining - 1 }
                    burstsCompleted := p.burstsCompleted + 1 }).deliverPost b.target.slot).port n with
                state := .idle
                burst := none
                interval := none })))))
  ∧ ∀ (d : Device) (i : Slot) (posted : Device),
    ((d.surface i).flip = .none ∨ (d.surface i).flip = .shown) →
    posted = { d with
      surfaces := d.surfaces.set i
        { d.surface i with flip := if (d.surface i).flip = .none then .posted else .shownHeld } } →
    (d.scan.state ≠ .stopped → d.deliverPost i = posted)
    ∧ (d.scan.state = .stopped → d.deliverPost i = posted.applyPoint true)

/-- IDLE_TIMEOUT (R128, R130): an interval with a setting other than 0 that has lasted that many microseconds ends the
header or burst with TIMEOUT; a setting of 0, a shorter time or no interval: the event does not occur (log 2). A write
that waits is withdrawn (R35); if it is the one the arbiter grants next, its grant may have been taken first, and then
it completes: the free value decides (R125, log 3). Nothing else changes. -/
def Obligations.IdleTimeoutTaken : Prop :=
  ∀ (s : State) (n : PortNum) (p : Port), p = s.dev.port n →
    ((p.interval = none ∨ ∃ i, p.interval = some i ∧ (i.setting = 0 ∨ s.dev.timeBase < i.start + i.setting.toNat)) →
      exec (.idleTimeout n) s = .next s)
    ∧ ∀ (i : IdleInterval) (ended : Device), p.interval = some i → i.setting ≠ 0 →
      i.start + i.setting.toNat ≤ s.dev.timeBase →
      ended = { s.dev with
        ports := s.dev.ports.set n
          { p with
            state := .discarding
            header := []
            burst := none
            writeRequest := none
            interval := none
            lastError := .timeout
            errorCount := if p.errorCount < 255 then p.errorCount + 1 else 255 }
        events := { s.dev.events with latched := s.dev.events.latched ||| bitsAt 1 (6 + n.val) } } →
      ((p.writeRequest = none ∨ s.dev.grants (.rotating (.port n)) = false) →
        exec (.idleTimeout n) s = .next (s.withDevice ended))
      ∧ ∀ r, p.writeRequest = some r → s.dev.grants (.rotating (.port n)) = true →
        (Config.grantTakenFirst s.dev.freeIndex = false →
          exec (.idleTimeout n) s = .next (s.withDevice { ended with freeIndex := s.dev.freeIndex + 1 }))
        ∧ (Config.grantTakenFirst s.dev.freeIndex = true →
          exec (.idleTimeout n) s = .next (s.withDevice
            { ended with
              freeIndex := s.dev.freeIndex + 1
              store := s.dev.store.writePixel r.pos r.pixel
              rotation := .port n }))

/-- PORT_RESET and PORT_RESET_RELEASE (R135): SnPRST_N falling ends a header or burst with PORT_RESET, stops the idle
interval and holds the port; rising, the port is IDLE. A write that waits is withdrawn, or completes when its grant
was taken first (R35, free value, log 3). Nothing else changes; on a pin already at that level nothing happens. -/
def Obligations.PortResets : Prop :=
  ∀ (s : State) (n : PortNum) (p : Port), p = s.dev.port n →
    (p.held = true → exec (.portReset n) s = .next s)
    ∧ (p.held = false → (p.state = .idle ∨ p.state = .discarding) →
      exec (.portReset n) s = .next (s.withDevice
        { s.dev with ports := s.dev.ports.set n { p with held := true, interval := none } }))
    ∧ (p.held = false → (p.state = .header ∨ p.state = .stalled ∨ p.state = .pixels) → ∀ ended : Device,
      ended = { s.dev with
        ports := s.dev.ports.set n
          { p with
            state := .discarding
            held := true
            header := []
            burst := none
            writeRequest := none
            interval := none
            lastError := .portReset
            errorCount := if p.errorCount < 255 then p.errorCount + 1 else 255 }
        events := { s.dev.events with latched := s.dev.events.latched ||| bitsAt 1 (6 + n.val) } } →
      ((p.writeRequest = none ∨ s.dev.grants (.rotating (.port n)) = false) →
        exec (.portReset n) s = .next (s.withDevice ended))
      ∧ ∀ r, p.writeRequest = some r → s.dev.grants (.rotating (.port n)) = true →
        exec (.portReset n) s = .next (s.withDevice
          { ended with
            freeIndex := s.dev.freeIndex + 1
            store :=
              if Config.grantTakenFirst s.dev.freeIndex then s.dev.store.writePixel r.pos r.pixel else s.dev.store
            rotation := if Config.grantTakenFirst s.dev.freeIndex then .port n else s.dev.rotation }))
    ∧ (p.held = false → exec (.portResetRelease n) s = .next s)
    ∧ (p.held = true →
      exec (.portResetRelease n) s = .next (s.withDevice
        { s.dev with ports := s.dev.ports.set n { p with held := false, state := .idle } }))

/-! ## Block engine -/

/-- FILL (R144, R146) and COPY_FORWARD (R145, R146): their refusals in their order; otherwise one job is admitted for
buffer A of a SINGLE surface, or the back buffer of a DOUBLE one, and its id is the answer. BUSY is answered under a
burst (`underBurst`, which PostResult states). -/
def Obligations.JobCommands : Prop :=
  ∀ (s : State) (low : Byte) (hw x y w ht : Word) (h : Handle) (r : Surface), s.dev.takesCommands = true →
    s.dev.engine.jobs.length < 4 → h = handleOf hw → r = s.dev.surface h.slot →
    ∀ inside : Prop,
      (inside ↔ 1 ≤ w.toNat ∧ 1 ≤ ht.toNat ∧ x.toNat + w.toNat ≤ r.width ∧ y.toNat + ht.toNat ≤ r.height) →
      (declares low 8 = true → ∀ sel colour : Word,
        (∀ status, s.dev.handleRefusal h = some status →
          exec (.fill low [hw, sel, x, y, w, ht, colour]) s
            = .next (s.withDevice (s.dev.answering 0x38 (refusal status))))
        ∧ (s.dev.handleRefusal h = none →
          ((1 < sel.toNat ∨ (r.buffering = .double ∧ sel = 0) ∨ ¬ inside) →
            exec (.fill low [hw, sel, x, y, w, ht, colour]) s
              = .next (s.withDevice (s.dev.answering 0x38 (refusal .badParam))))
          ∧ (sel.toNat ≤ 1 → (r.buffering = .double → sel = 1) → inside →
            (s.dev.underBurst h = true →
              exec (.fill low [hw, sel, x, y, w, ht, colour]) s
                = .next (s.withDevice (s.dev.answering 0x38 (refusal .busy))))
            ∧ (s.dev.underBurst h = false → (r.flip = .posted ∨ r.flip = .shownHeld) →
              exec (.fill low [hw, sel, x, y, w, ht, colour]) s
                = .next (s.withDevice (s.dev.answering 0x38 (refusal .badState))))
            ∧ (s.dev.underBurst h = false → (r.flip = .none ∨ r.flip = .shown) →
              exec (.fill low [hw, sel, x, y, w, ht, colour]) s
                = .next (s.withDevice ((s.dev.admitJob (.fill colour) h r.writeBuffer
                    ⟨x.toNat, y.toNat, w.toNat, ht.toNat⟩).answering 0x38
                    (okReply [s.dev.engine.nextId.setWidth 16])))))))
      ∧ (declares low 6 = true →
        (∀ status, s.dev.handleRefusal h = some status →
          exec (.copyForward low [hw, x, y, w, ht]) s
            = .next (s.withDevice (s.dev.answering 0x39 (refusal status))))
        ∧ (s.dev.handleRefusal h = none →
          (r.buffering = .single →
            exec (.copyForward low [hw, x, y, w, ht]) s
              = .next (s.withDevice (s.dev.answering 0x39 (refusal .badState))))
          ∧ (r.buffering = .double → ¬ inside →
            exec (.copyForward low [hw, x, y, w, ht]) s
              = .next (s.withDevice (s.dev.answering 0x39 (refusal .badParam))))
          ∧ (r.buffering = .double → inside →
            (s.dev.underBurst h = true →
              exec (.copyForward low [hw, x, y, w, ht]) s
                = .next (s.withDevice (s.dev.answering 0x39 (refusal .busy))))
            ∧ (s.dev.underBurst h = false → (r.flip = .posted ∨ r.flip = .shownHeld) →
              exec (.copyForward low [hw, x, y, w, ht]) s
                = .next (s.withDevice (s.dev.answering 0x39 (refusal .badState))))
            ∧ (s.dev.underBurst h = false → (r.flip = .none ∨ r.flip = .shown) →
              exec (.copyForward low [hw, x, y, w, ht]) s
                = .next (s.withDevice ((s.dev.admitJob (.copyForward r.front) h r.front.other
                    ⟨x.toNat, y.toNat, w.toNat, ht.toNat⟩).answering 0x39
                    (okReply [s.dev.engine.nextId.setWidth 16])))))))

/-- Admission (R141, R146, R148, R149): the new record is the newest, with the counter's id, QUEUED behind a running
job; when no job is RUNNING or QUEUED it starts at once with its first request. A start (R148, `startJob`): when no
job is RUNNING, the oldest QUEUED one becomes RUNNING with the request of its progress, passing over the jobs that
have ended; while one is RUNNING, or none is QUEUED, nothing starts. Nothing outside the block engine changes. -/
def Obligations.JobAdmitted : Prop :=
  (∀ d : Device,
    (((∃ j ∈ d.engine.jobs, j.state = .running) ∨ ∀ j ∈ d.engine.jobs, j.state ≠ .queued) → d.startJob = d)
    ∧ ∀ (before after : List Job) (j : Job) (x y : Nat), d.engine.jobs = before ++ j :: after →
      (∀ k ∈ d.engine.jobs, k.state ≠ .running) → (∀ k ∈ before, k.state ≠ .queued) → j.state = .queued →
      x = j.rect.x + j.progress % j.rect.width → y = j.rect.y + j.progress / j.rect.width →
      d.startJob
        = { d with
            engine := { d.engine with
              jobs := before ++ { j with state := .running } :: after
              request := some
                (match j.kind with
                | .fill colour => .write ⟨(d.surface j.handle.slot).pixelAt j.target x y, colour⟩
                | .copyForward source => .read ((d.surface j.handle.slot).pixelAt source x y)) } })
  ∧ ∀ (d : Device) (kind : JobKind) (h : Handle) (t : BufferId) (r : Rect),
    ((∃ j ∈ d.engine.jobs, j.state = .running) →
      d.admitJob kind h t r
        = { d with
            engine := { d.engine with
              jobs := d.engine.jobs ++ [⟨d.engine.nextId, kind, h, t, r, 0, .queued⟩]
              nextId := d.engine.nextId + 1 } })
    ∧ ((∀ j ∈ d.engine.jobs, j.state ≠ .running ∧ j.state ≠ .queued) →
      d.admitJob kind h t r
        = { d with
            engine :=
              { jobs := d.engine.jobs ++ [⟨d.engine.nextId, kind, h, t, r, 0, .running⟩]
                nextId := d.engine.nextId + 1
                request := some
                  (match kind with
                  | .fill colour => .write ⟨(d.surface h.slot).pixelAt t (r.x + 0 % r.width) (r.y + 0 / r.width), colour⟩
                  | .copyForward source =>
                    .read ((d.surface h.slot).pixelAt source (r.x + 0 % r.width) (r.y + 0 / r.width))) } })

/-- JOB_READ_COMPLETE (R34, R36, R149): a granted source read is followed by the write of the pixel read at the same
pixel of the target buffer; nothing else changes but the pointer. Not granted, or while the request is a write, the
event does not occur (log 2). -/
def Obligations.JobReadCompletes : Prop :=
  ∀ s : State,
    ((s.dev.grants (.rotating .blockEngine) = false ∨ ∃ r, s.dev.engine.request = some (.write r)) →
      exec .jobReadComplete s = .next s)
    ∧ ∀ (p : PixelPos) (j : Job) (before after : List Job), s.dev.grants (.rotating .blockEngine) = true →
      s.dev.engine.request = some (.read p) → s.dev.engine.jobs = before ++ j :: after →
      (∀ k ∈ before, k.state ≠ .running) → j.state = .running →
      exec .jobReadComplete s = .next (s.withDevice
        { s.dev with
          rotation := .blockEngine
          engine := { s.dev.engine with
            request := some (.write
              ⟨(s.dev.surface j.handle.slot).pixelAt j.target (j.rect.x + j.progress % j.rect.width)
                  (j.rect.y + j.progress / j.rect.width),
                s.dev.store.readPixel p⟩) } })

/-- JOB_WRITE_COMPLETE (R32, R148 to R150). Before the last pixel: the pixel is stored, the running job's progress
advances by one, and it raises the request for the next pixel of its rectangle in row order. The last write: the job
is FINISHED, the oldest QUEUED job starts in the same step (`startJob`, which JobAdmitted states), and the finished
job then offers its JOB_END record. Not granted, or while the request is a read, the event does not occur (log 2). -/
def Obligations.JobWriteCompletes : Prop :=
  (∀ s : State,
      ((s.dev.grants (.rotating .blockEngine) = false ∨ ∃ p, s.dev.engine.request = some (.read p)) →
        exec .jobWriteComplete s = .next s)
      ∧ ∀ (r : WriteRequest) (j : Job) (before after : List Job) (x y : Nat),
        s.dev.grants (.rotating .blockEngine) = true → s.dev.engine.request = some (.write r) →
        s.dev.engine.jobs = before ++ j :: after → (∀ k ∈ before, k.state ≠ .running) → j.state = .running →
        j.progress + 1 ≠ j.rect.width * j.rect.height →
        x = j.rect.x + (j.progress + 1) % j.rect.width → y = j.rect.y + (j.progress + 1) / j.rect.width →
        exec .jobWriteComplete s = .next (s.withDevice (Device.settle
          { s.dev with
            store := s.dev.store.writePixel r.pos r.pixel
            rotation := .blockEngine
            engine := { s.dev.engine with
              jobs := before ++ { j with progress := j.progress + 1 } :: after
              request := some
                (match j.kind with
                | .fill colour => .write ⟨(s.dev.surface j.handle.slot).pixelAt j.target x y, colour⟩
                | .copyForward source => .read ((s.dev.surface j.handle.slot).pixelAt source x y)) } })))
  ∧ (∀ (s : State) (r : WriteRequest) (j : Job) (before after : List Job),
      s.dev.grants (.rotating .blockEngine) = true → s.dev.engine.request = some (.write r) →
      s.dev.engine.jobs = before ++ j :: after → (∀ k ∈ before, k.state ≠ .running) → j.state = .running →
      j.progress + 1 = j.rect.width * j.rect.height →
      exec .jobWriteComplete s = .next (s.withDevice (Device.settle
        ((Device.startJob
          { s.dev with
            store := s.dev.store.writePixel r.pos r.pixel
            rotation := .blockEngine
            engine := { s.dev.engine with
              jobs := before ++ { j with progress := j.progress + 1, state := .finished } :: after
              request := none } }).offerJobEnd j.id))))

/-- A JOB_END record is offered (R150 to R152): with room it is placed with its outcome and the job leaves the queue,
then the port of the surface, the release of its slot and, while STOPPED, an idle apply point are examined; without
room COMPL_WAIT is latched and nothing else changes. -/
def Obligations.JobEndOffered : Prop :=
  ∀ (d : Device) (j : Job) (before after : List Job), d.engine.jobs = before ++ j :: after →
    (∀ k ∈ before, k.id ≠ j.id) → (j.state = .finished ∨ j.state = .aborted) →
    (16 ≤ d.control.completions.length →
      d.offerJobEnd j.id = { d with events := { d.events with latched := d.events.latched ||| 0x0008 } })
    ∧ (d.control.completions.length < 16 →
      ∀ placed : Device,
        placed = { d with
          engine := { d.engine with jobs := before ++ after }
          control := { d.control with
            completions := d.control.completions
              ++ [.jobEnd j.handle j.id (if j.state = .aborted then .aborted else .done)] } } →
        (d.scan.state ≠ .stopped →
          d.offerJobEnd j.id = (placed.examineStall j.handle).examineRelease j.handle.slot)
        ∧ (d.scan.state = .stopped →
          d.offerJobEnd j.id = ((placed.examineStall j.handle).examineRelease j.handle.slot).applyPoint true))

/-! ## Queues and events -/

/-- RESP_READ (R165): the next word of the oldest response stands on D[15:0]; its last word takes the response from
the queue, and the heads that its room releases execute. COMPL_READ (R166, R167): the next of the four words of the
oldest record stands on D[15:0]; the fourth takes the record from the queue and offers its room: to the ended jobs
oldest first, the waiting releases lowest slot first, and while STOPPED an idle apply point. An empty queue returns
0000h and changes nothing. The words of responses and records (Tables 11-6, 11-7, 11-11, R183), and what the eight
locations read (R156, R172, Table 9-1; the event set, `eventWord`, which EventsLatchedAndCleared states), with the
first head-waiting cause that holds (R158, R169, Table 11-15). -/
def Obligations.QueuesRead : Prop :=
  (∀ s : State, s.dev.pins.resetN = true →
      (s.dev.control.responses = [] → s.dev.headsWait →
        exec .respRead s = .next (s.withDevice { s.dev with pins := { s.dev.pins with dataOut := some 0 } }))
      ∧ ∀ r rest k, s.dev.control.responses = r :: rest → s.dev.control.responseRead = k →
        (k + 1 < (responseWords r).length → s.dev.headsWait →
          exec .respRead s = .next (s.withDevice
            { s.dev with
              pins := { s.dev.pins with dataOut := some ((responseWords r).getD k 0) }
              control := { s.dev.control with responseRead := k + 1 } }))
        ∧ ((responseWords r).length ≤ k + 1 →
          exec .respRead s = .next (s.withDevice (Device.settle
            { s.dev with
              pins := { s.dev.pins with dataOut := some ((responseWords r).getD k 0) }
              control := { s.dev.control with responses := rest, responseRead := 0 } }))))
  ∧ (∀ s : State, s.dev.pins.resetN = true →
      (s.dev.control.completions = [] → s.dev.headsWait →
        exec .complRead s = .next (s.withDevice { s.dev with pins := { s.dev.pins with dataOut := some 0 } }))
      ∧ ∀ r rest k, s.dev.control.completions = r :: rest → s.dev.control.completionRead = k →
        (recordWords r).length = 4
        ∧ (k < 3 → s.dev.headsWait →
          exec .complRead s = .next (s.withDevice
            { s.dev with
              pins := { s.dev.pins with dataOut := some ((recordWords r).getD k 0) }
              control := { s.dev.control with completionRead := k + 1 } }))
        ∧ (3 ≤ k → ∀ read ended released : Device,
          read = { s.dev with
            pins := { s.dev.pins with dataOut := some ((recordWords r).getD k 0) }
            control := { s.dev.control with completions := rest, completionRead := 0 } } →
          ended = ((s.dev.engine.jobs.filter fun j => j.state == .finished || j.state == .aborted).map
            fun j => j.id).foldl Device.offerJobEnd read →
          released = allSlots.foldl Device.examineRelease ended →
          (released.scan.state ≠ .stopped → exec .complRead s = .next (s.withDevice released.settle))
          ∧ (released.scan.state = .stopped →
            exec .complRead s = .next (s.withDevice (released.applyPoint true).settle))))
  ∧ (∀ r : Response, r.results.length ≤ 6 → ∃ first second : Word, responseWords r = first :: second :: r.results
      ∧ first.toNat = 0x8000 + r.results.length * 0x1000 + statusCode r.status * 0x100 + r.seq.toNat
      ∧ second.toNat = r.opcode.toNat * 0x100)
  ∧ [Status.ok, .badCommand, .badLength, .badHandle, .badParam, .badState, .noSpace, .listFull, .busy].map statusCode
    = [0, 1, 2, 3, 4, 5, 6, 7, 8]
  ∧ (∀ (h : Handle) (tag : Nat) (count frameLow : Word) (idle : Bool), tag ≤ 63 →
      ∃ first second : Word, recordWords (.flip h tag count frameLow idle) = [first, second, count, frameLow]
        ∧ first.toNat = 0x1000 + h.slot.val * 0x100 + h.generation.toNat
        ∧ second.toNat = (if idle then 0x8000 else 0) + tag)
  ∧ (∀ (batch : Word) (frame : BitVec 32) (idle : Bool),
      ∃ first low high : Word, recordWords (.applied batch frame idle) = [first, batch, low, high]
        ∧ first.toNat = 0x2000 + (if idle then 1 else 0) ∧ frame.toNat = high.toNat * 0x10000 + low.toNat)
  ∧ (∀ (h : Handle) (id : Byte) (outcome : JobOutcome),
      ∃ first second : Word, recordWords (.jobEnd h id outcome) = [first, second, 0, 0]
        ∧ first.toNat = 0x3000 + h.slot.val * 0x100 + h.generation.toNat
        ∧ second.toNat = (if outcome = .aborted then 0x8000 else 0) + id.toNat)
  ∧ (∀ (h : Handle) (slabs : Nat), slabs ≤ 256 →
      ∃ first second : Word, recordWords (.released h slabs) = [first, second, 0, 0]
        ∧ first.toNat = 0x4000 + h.slot.val * 0x100 + h.generation.toNat ∧ second.toNat = slabs)
  ∧ (∀ d : Device, d.pins.resetN = true →
      d.readLocation .ack = 0 ∧ d.readLocation .event = d.eventWord
      ∧ d.readLocation .eventEnable = d.events.enabled
      ∧ (d.control.responses = [] → d.readLocation .resp = 0) ∧ (d.control.completions = [] → d.readLocation .compl = 0)
      ∧ (∀ r rest, d.control.responses = r :: rest →
        d.readLocation .resp = (responseWords r).getD d.control.responseRead 0)
      ∧ (∀ r rest, d.control.completions = r :: rest →
        d.readLocation .compl = (recordWords r).getD d.control.completionRead 0)
      ∧ (d.readLocation .cmd).toNat = 64 - (d.control.commands.map fun q => admissionLength q.word0).sum
      ∧ (d.queueLaw → (d.readLocation .queueStatus).toNat
        = d.control.responses.length + d.control.completions.length * 0x10 + d.engine.jobs.length * 0x200)
      ∧ ∀ staging assembly : Nat,
        (d.staging.state = .opened → staging = 0) → (d.staging.state = .armed → staging = 1) →
        (d.control.assembly = .idle → assembly = 0) →
        (∀ total k, d.control.assembly = .collecting total k → assembly = 1) →
        (∀ total k, d.control.assembly = .dropping total k → assembly = 2) →
        (d.readLocation .deviceStatus).toNat
          = scanStateCode d.scan.state + staging * 4 + (if d.staging.dirty then 8 else 0) + assembly * 0x10
            + waitCauseCode d.waitCause * 0x100)
  ∧ [ScanState.stopped, .running, .draining].map scanStateCode = [0, 1, 2]
  ∧ [WaitCause.none, .incomplete, .responseRoom, .stagingArmed, .jobRoom, .frameStoreRead].map waitCauseCode
    = [0, 1, 2, 3, 4, 5]
  ∧ ∀ d : Device,
    (d.control.commands = [] → d.waitCause = .none)
    ∧ ∀ q rest, d.control.commands = q :: rest →
      (q.params.length + 1 < admissionLength q.word0 → d.waitCause = .incomplete)
      ∧ (admissionLength q.word0 ≤ q.params.length + 1 →
        (8 ≤ d.control.responses.length → d.waitCause = .responseRoom)
        ∧ (d.control.responses.length < 8 →
          (waitClass q = .staging →
            d.waitCause = if d.staging.state = .armed then .stagingArmed else .none)
          ∧ (∀ places, waitClass q = .job places →
            d.waitCause = if 4 < d.engine.jobs.length + places then .jobRoom else .none)
          ∧ (waitClass q = .unclassed →
            d.waitCause = if d.pixelRead.isSome then .frameStoreRead else .none)))

/-- EVENT_ENABLE_WRITE (R177, R178): the enable set becomes the eleven member positions of the word, EVENT_ENABLE
reads it back, the latched flags are set and cleared as before, and IRQ_N is low exactly when a member is set and
enabled. -/
def Obligations.EnableSetReplaced : Prop :=
  ∀ (s : State) (w : Word), s.dev.pins.resetN = true →
    ∀ d : Device, d = { s.dev with
      pins := { s.dev.pins with dataOut := none }
      events := { s.dev.events with enabled := w &&& 0x07FF } } →
    exec (.eventEnableWrite w) s = .next (s.withDevice d)
    ∧ d.readLocation .eventEnable = w &&& 0x07FF
    ∧ (∀ e, (d.latch e).events.latched = (s.dev.latch e).events.latched)
    ∧ (∀ v, (d.clearEvents v).events.latched = (s.dev.clearEvents v).events.latched)
    ∧ (d.irqN = false ↔ ∃ k < 11, d.eventWord.getLsbD k = true ∧ w.getLsbD k = true)

/-- The event set and its causes (R130, R173, R174, Table 11-14): latching sets one flag and nothing else, and the two
level members follow their queues; each member stands at its bit of the event set, and the positions without a member
read 0 (R172). EVENT_WRITE (R175): each latched flag written as 1 is cleared, every other one keeps its value; the
level members, the enable set and everything else but D[15:0] stay. -/
def Obligations.EventsLatchedAndCleared : Prop :=
  (∀ (d : Device) (e : Event),
      (d.latch e).latchedFlag e = true
      ∧ (∀ f, f ≠ e → (d.latch e).latchedFlag f = d.latchedFlag f)
      ∧ d.latch e = { d with events := (d.latch e).events } ∧ (d.latch e).events.enabled = d.events.enabled
      ∧ (d.eventWord.getLsbD 0 = true ↔ d.control.responses ≠ [])
      ∧ (d.eventWord.getLsbD 1 = true ↔ d.control.completions ≠ [])
      ∧ (∀ f, d.eventWord.getLsbD (eventBit f) = d.latchedFlag f)
      ∧ (∀ f, d.latchedFlag f = d.events.latched.getLsbD (eventBit f))
      ∧ ∀ k, 11 ≤ k → d.eventWord.getLsbD k = false)
  ∧ [Event.frame, .complWait, .cmdOverflow, .strayAck, .portError 0, .portError 1, .portError 2, .portError 3,
      .panelStopped].map eventBit
    = [2, 3, 4, 5, 6, 7, 8, 9, 10]
  ∧ (∀ (s : State) (w : Word), s.dev.pins.resetN = true →
      ∃ latched : Word,
        exec (.eventWrite w) s = .next (s.withDevice
          { s.dev with
            pins := { s.dev.pins with dataOut := none }
            events := { s.dev.events with latched := latched } })
        ∧ (∀ e : Event, latched.getLsbD (eventBit e) = (s.dev.latchedFlag e && !w.getLsbD (eventBit e)))
        ∧ (w = 0 → latched = s.dev.events.latched))

/-! ## Resets -/

/-- SCENE_RESET (R24, R30, R61, R74, R76, R92, R139, R155, R170): every slot is FREE with its generation kept (its
other fields at their reset values, `Surface.freed`, the model's choice, log 9), all slabs are free, orders, records
and jobs are dropped, the pending background is the committed one, and every port is unbound, in DISCARD with
ABANDONED and PORTn latched when a header or burst was in progress; every other latched event is kept. The scan engine
keeps its state, setup, frame number, position, the value it composes, and of the reads of the pixel being composed
the one that waits (log 17). Counters, sequence numbers and responses are kept. The writes of those ports are
withdrawn; if one of them is the one the arbiter grants next, its grant may have been taken first (R34, R35, free
value, log 3), and every other pixel reads as before; the rotation pointer stays but for that grant. -/
def Obligations.SceneResetResult : Prop :=
  ∀ (s : State) (low : Byte), s.dev.takesCommands = true → declares low 1 = true →
    ∃ d : Device, exec (.sceneReset low []) s = .next (s.withDevice (d.answering 0x3F (okReply [])))
      ∧ (∀ i, d.surface i = Surface.freed (s.dev.surface i).generation) ∧ d.freeSlabs = allSlabs
      ∧ d.staging = { s.dev.staging with
          state := .opened, dirty := false, order := [], background := s.dev.layers.background }
      ∧ d.layers = { s.dev.layers with order := [] }
      ∧ d.control = { s.dev.control with completions := [], completionRead := 0 }
      ∧ d.engine = { s.dev.engine with jobs := [], request := none }
      ∧ d.scan = { s.dev.scan with reads := s.dev.scan.reads.take 1 }
      ∧ d.pins = s.dev.pins ∧ d.pixelRead = s.dev.pixelRead
      ∧ d.timeBase = s.dev.timeBase ∧ d.events.enabled = s.dev.events.enabled
      ∧ (∀ k, d.events.latched.getLsbD k = true ↔ s.dev.events.latched.getLsbD k = true
        ∨ ∃ n : PortNum, k = 6 + n.val ∧ (s.dev.port n).state.inProgress = true)
      ∧ (∀ n, (d.port n).binding = none
        ∧ ((s.dev.port n).state.inProgress = false → d.port n = { s.dev.port n with binding := none })
        ∧ ((s.dev.port n).state.inProgress = true → d.port n =
          { s.dev.port n with
            state := .discarding
            binding := none
            header := []
            burst := none
            writeRequest := none
            interval := none
            lastError := .abandoned
            errorCount := if (s.dev.port n).errorCount < 255 then (s.dev.port n).errorCount + 1 else 255 }))
      ∧ ((∀ n, (s.dev.port n).writeRequest = none ∨ (s.dev.port n).state.inProgress = false
          ∨ s.dev.grants (.rotating (.port n)) = false) →
        d.store = s.dev.store ∧ d.rotation = s.dev.rotation ∧ d.freeIndex = s.dev.freeIndex)
      ∧ (∀ n r, (s.dev.port n).writeRequest = some r → (s.dev.port n).state.inProgress = true →
        s.dev.grants (.rotating (.port n)) = true →
        d.freeIndex = s.dev.freeIndex + 1
        ∧ d.store = (if Config.grantTakenFirst s.dev.freeIndex then s.dev.store.writePixel r.pos r.pixel
          else s.dev.store)
        ∧ d.rotation = if Config.grantTakenFirst s.dev.freeIndex then .port n else s.dev.rotation)
      ∧ (Memory.wf s.dev.store → ∀ q, (∀ n r, (s.dev.port n).writeRequest = some r → q ≠ r.pos) →
        d.store.readPixel q = s.dev.store.readPixel q)
      ∧ ∀ st : PortState, st.inProgress = true ↔ st = .header ∨ st = .stalled ∨ st = .pixels

/-- DEVICE_RESET and DEVICE_RESET_RELEASE (R23, R28, R32, R34, R60, R75, R91, R138, R154, R171, R179) complete in
every state. RESET_N low, every block stands at its reset values (the fields of a FREE slot, `Surface.freed`, are
the model's choice, log 9), and the levels of the SnPRST_N inputs and the time base are not reset (log 6, log 10).
Every request is withdrawn, so the frame store is kept; if the arbiter grants a write next, its grant may have
been taken first (R32, R34, R35, free value, log 3), and every other pixel reads as before. RESET_N rising changes
nothing else. -/
def Obligations.DeviceResetResult : Prop :=
  ∀ s : State,
    (s.dev.pins.resetN = false → exec .deviceReset s = .next s)
    ∧ exec .deviceResetRelease s
      = .next (s.withDevice { s.dev with pins := { s.dev.pins with resetN := true } })
    ∧ (s.dev.pins.resetN = true → ∃ d : Device, exec .deviceReset s = .next (s.withDevice d)
      ∧ d.pins = ⟨false, none⟩ ∧ d.control = ⟨.idle, [], 0, [], 0, [], 0⟩ ∧ d.pixelRead = none
      ∧ (∀ i, d.surface i = Surface.freed 0) ∧ d.freeSlabs = allSlabs ∧ d.rotation = .pixelRead
      ∧ d.staging = ⟨.opened, false, [], 0, 0⟩ ∧ d.layers = ⟨[], 0⟩
      ∧ d.scan = ⟨.stopped, ⟨0, 0, 0, 0, 0, .activeLow, .activeLow⟩, 0, none, 0, 0, [], false⟩
      ∧ (∀ n, d.port n = ⟨.idle, (s.dev.port n).held, none, [], none, none, 0, none, .none, 0, 0⟩)
      ∧ d.engine = ⟨[], 0, none⟩ ∧ d.events = ⟨0, 0⟩ ∧ d.timeBase = s.dev.timeBase ∧ d.irqN = true
      ∧ (∀ n, d.ready n = false)
      ∧ ((∀ n, (s.dev.port n).writeRequest = none ∨ s.dev.grants (.rotating (.port n)) = false) →
        (∀ r, s.dev.engine.request = some (.write r) → s.dev.grants (.rotating .blockEngine) = false) →
        d.store = s.dev.store ∧ d.freeIndex = s.dev.freeIndex)
      ∧ (∀ r,
        ((∃ n, (s.dev.port n).writeRequest = some r ∧ s.dev.grants (.rotating (.port n)) = true)
          ∨ s.dev.engine.request = some (.write r) ∧ s.dev.grants (.rotating .blockEngine) = true) →
        d.freeIndex = s.dev.freeIndex + 1
        ∧ d.store = if Config.grantTakenFirst s.dev.freeIndex then s.dev.store.writePixel r.pos r.pixel
          else s.dev.store)
      ∧ (Memory.wf s.dev.store → ∀ q, (∀ n r, (s.dev.port n).writeRequest = some r → q ≠ r.pos) →
        (∀ r, s.dev.engine.request = some (.write r) → q ≠ r.pos) →
        d.store.readPixel q = s.dev.store.readPixel q))

/-! ## Laws that every step keeps -/

/-- Every step keeps the frame store in its canonical form. -/
def Obligations.StoreLawKept : Prop :=
  ∀ s t : State, s.dev.storeLaw → step s = .next t → t.dev.storeLaw

/-- Every step keeps the queues within their capacities (R142, R157, R164, R168). -/
def Obligations.QueueLawKept : Prop :=
  ∀ s t : State, s.dev.queueLaw → step s = .next t → t.dev.queueLaw

/-- Every step keeps slab conservation (R31). -/
def Obligations.SlabLawKept : Prop :=
  ∀ s t : State, s.dev.slabLaw → step s = .next t → t.dev.slabLaw

/-- Every step keeps the law of the orders (R42, R62). -/
def Obligations.OrderLawKept : Prop :=
  ∀ s t : State, s.dev.orderLaw → step s = .next t → t.dev.orderLaw

/-- Every step keeps the law of the bindings (R131). -/
def Obligations.BindingLawKept : Prop :=
  ∀ s t : State, s.dev.bindingLaw → step s = .next t → t.dev.bindingLaw

/-- Every step keeps the idle intervals within their settings (R128), the time base going on by ticks (the model's
choice, log 6, log 23). -/
def Obligations.IntervalLawKept : Prop :=
  ∀ s t : State, s.dev.intervalLaw → step s = .next t → t.dev.intervalLaw

/-- The six laws hold right after reset. -/
def Obligations.LawsHoldAtReset : Prop :=
  State.reset.dev.storeLaw ∧ State.reset.dev.queueLaw ∧ State.reset.dev.slabLaw ∧ State.reset.dev.orderLaw
    ∧ State.reset.dev.bindingLaw ∧ State.reset.dev.intervalLaw
end

