-- ==== Sys2Proof/Laws/State.lean ====
section
/-! SUPPORT. What each named update leaves in each field of the state: one lemma per field, true by computation. -/

namespace Sys2Proof.Machine

/-! ## The state -/

@[simp] theorem State.withDevice_dev (s : State) (d : Device) : (s.withDevice d).dev = d := rfl
@[simp] theorem State.withDevice_pending (s : State) (d : Device) : (s.withDevice d).pending = s.pending := rfl

/-! ## Surfaces and ports -/

theorem Device.surface_eq (d : Device) (i : Slot) : d.surface i = d.surfaces[i] := rfl
theorem Device.port_eq (d : Device) (n : PortNum) : d.port n = d.ports[n] := rfl

/-- A slot after one slot's record is replaced. -/
theorem Device.setSurface_surface (d : Device) (i j : Slot) (r : Surface) :
    (d.setSurface i r).surface j = if i = j then r else d.surface j := by
  simp only [Device.surface, Device.setSurface, Fin.getElem_fin, Vector.getElem_set, Fin.ext_iff]

/-- A slot after every slot's record is changed. -/
@[simp] theorem Device.mapSurfaces_surface (d : Device) (f : Slot → Surface → Surface) (j : Slot) :
    (d.mapSurfaces f).surface j = f j (d.surface j) := by
  simp [Device.surface, Device.mapSurfaces]

/-- A port after one port is replaced. -/
theorem Device.setPort_port (d : Device) (m n : PortNum) (p : Port) :
    (d.setPort m p).port n = if m = n then p else d.port n := by
  simp only [Device.port, Device.setPort, Fin.getElem_fin, Vector.getElem_set, Fin.ext_iff]

@[simp] theorem Device.setSurface_surface_self (d : Device) (i : Slot) (r : Surface) :
    (d.setSurface i r).surface i = r := by simp [Device.setSurface_surface]

@[simp] theorem Device.setPort_port_self (d : Device) (n : PortNum) (p : Port) :
    (d.setPort n p).port n = p := by simp [Device.setPort_port]

/-! ## Fields -/

/-! `setSurface` -/

@[simp] theorem Device.setSurface_pins (d : Device) (i : Slot) (r : Surface) :
    (d.setSurface i r).pins = d.pins := rfl
@[simp] theorem Device.setSurface_control (d : Device) (i : Slot) (r : Surface) :
    (d.setSurface i r).control = d.control := rfl
@[simp] theorem Device.setSurface_pixelRead (d : Device) (i : Slot) (r : Surface) :
    (d.setSurface i r).pixelRead = d.pixelRead := rfl
@[simp] theorem Device.setSurface_surfaces (d : Device) (i : Slot) (r : Surface) :
    (d.setSurface i r).surfaces = d.surfaces.set i r := rfl
@[simp] theorem Device.setSurface_freeSlabs (d : Device) (i : Slot) (r : Surface) :
    (d.setSurface i r).freeSlabs = d.freeSlabs := rfl
@[simp] theorem Device.setSurface_store (d : Device) (i : Slot) (r : Surface) :
    (d.setSurface i r).store = d.store := rfl
@[simp] theorem Device.setSurface_rotation (d : Device) (i : Slot) (r : Surface) :
    (d.setSurface i r).rotation = d.rotation := rfl
@[simp] theorem Device.setSurface_staging (d : Device) (i : Slot) (r : Surface) :
    (d.setSurface i r).staging = d.staging := rfl
@[simp] theorem Device.setSurface_layers (d : Device) (i : Slot) (r : Surface) :
    (d.setSurface i r).layers = d.layers := rfl
@[simp] theorem Device.setSurface_scan (d : Device) (i : Slot) (r : Surface) :
    (d.setSurface i r).scan = d.scan := rfl
@[simp] theorem Device.setSurface_ports (d : Device) (i : Slot) (r : Surface) :
    (d.setSurface i r).ports = d.ports := rfl
@[simp] theorem Device.setSurface_engine (d : Device) (i : Slot) (r : Surface) :
    (d.setSurface i r).engine = d.engine := rfl
@[simp] theorem Device.setSurface_events (d : Device) (i : Slot) (r : Surface) :
    (d.setSurface i r).events = d.events := rfl
@[simp] theorem Device.setSurface_timeBase (d : Device) (i : Slot) (r : Surface) :
    (d.setSurface i r).timeBase = d.timeBase := rfl
@[simp] theorem Device.setSurface_freeIndex (d : Device) (i : Slot) (r : Surface) :
    (d.setSurface i r).freeIndex = d.freeIndex := rfl
@[simp] theorem Device.setSurface_port (d : Device) (i : Slot) (r : Surface) (n : PortNum) :
    (d.setSurface i r).port n = d.port n := rfl

/-! `mapSurfaces` -/

@[simp] theorem Device.mapSurfaces_pins (d : Device) (f : Slot → Surface → Surface) :
    (d.mapSurfaces f).pins = d.pins := rfl
@[simp] theorem Device.mapSurfaces_control (d : Device) (f : Slot → Surface → Surface) :
    (d.mapSurfaces f).control = d.control := rfl
@[simp] theorem Device.mapSurfaces_pixelRead (d : Device) (f : Slot → Surface → Surface) :
    (d.mapSurfaces f).pixelRead = d.pixelRead := rfl
@[simp] theorem Device.mapSurfaces_surfaces (d : Device) (f : Slot → Surface → Surface) :
    (d.mapSurfaces f).surfaces = Vector.ofFn fun i => f i d.surfaces[i] := rfl
@[simp] theorem Device.mapSurfaces_freeSlabs (d : Device) (f : Slot → Surface → Surface) :
    (d.mapSurfaces f).freeSlabs = d.freeSlabs := rfl
@[simp] theorem Device.mapSurfaces_store (d : Device) (f : Slot → Surface → Surface) :
    (d.mapSurfaces f).store = d.store := rfl
@[simp] theorem Device.mapSurfaces_rotation (d : Device) (f : Slot → Surface → Surface) :
    (d.mapSurfaces f).rotation = d.rotation := rfl
@[simp] theorem Device.mapSurfaces_staging (d : Device) (f : Slot → Surface → Surface) :
    (d.mapSurfaces f).staging = d.staging := rfl
@[simp] theorem Device.mapSurfaces_layers (d : Device) (f : Slot → Surface → Surface) :
    (d.mapSurfaces f).layers = d.layers := rfl
@[simp] theorem Device.mapSurfaces_scan (d : Device) (f : Slot → Surface → Surface) :
    (d.mapSurfaces f).scan = d.scan := rfl
@[simp] theorem Device.mapSurfaces_ports (d : Device) (f : Slot → Surface → Surface) :
    (d.mapSurfaces f).ports = d.ports := rfl
@[simp] theorem Device.mapSurfaces_engine (d : Device) (f : Slot → Surface → Surface) :
    (d.mapSurfaces f).engine = d.engine := rfl
@[simp] theorem Device.mapSurfaces_events (d : Device) (f : Slot → Surface → Surface) :
    (d.mapSurfaces f).events = d.events := rfl
@[simp] theorem Device.mapSurfaces_timeBase (d : Device) (f : Slot → Surface → Surface) :
    (d.mapSurfaces f).timeBase = d.timeBase := rfl
@[simp] theorem Device.mapSurfaces_freeIndex (d : Device) (f : Slot → Surface → Surface) :
    (d.mapSurfaces f).freeIndex = d.freeIndex := rfl
@[simp] theorem Device.mapSurfaces_port (d : Device) (f : Slot → Surface → Surface) (n : PortNum) :
    (d.mapSurfaces f).port n = d.port n := rfl

/-! `setPort` -/

@[simp] theorem Device.setPort_pins (d : Device) (n : PortNum) (p : Port) : (d.setPort n p).pins = d.pins := rfl
@[simp] theorem Device.setPort_control (d : Device) (n : PortNum) (p : Port) :
    (d.setPort n p).control = d.control := rfl
@[simp] theorem Device.setPort_pixelRead (d : Device) (n : PortNum) (p : Port) :
    (d.setPort n p).pixelRead = d.pixelRead := rfl
@[simp] theorem Device.setPort_surfaces (d : Device) (n : PortNum) (p : Port) :
    (d.setPort n p).surfaces = d.surfaces := rfl
@[simp] theorem Device.setPort_freeSlabs (d : Device) (n : PortNum) (p : Port) :
    (d.setPort n p).freeSlabs = d.freeSlabs := rfl
@[simp] theorem Device.setPort_store (d : Device) (n : PortNum) (p : Port) : (d.setPort n p).store = d.store := rfl
@[simp] theorem Device.setPort_rotation (d : Device) (n : PortNum) (p : Port) :
    (d.setPort n p).rotation = d.rotation := rfl
@[simp] theorem Device.setPort_staging (d : Device) (n : PortNum) (p : Port) :
    (d.setPort n p).staging = d.staging := rfl
@[simp] theorem Device.setPort_layers (d : Device) (n : PortNum) (p : Port) :
    (d.setPort n p).layers = d.layers := rfl
@[simp] theorem Device.setPort_scan (d : Device) (n : PortNum) (p : Port) : (d.setPort n p).scan = d.scan := rfl
@[simp] theorem Device.setPort_ports (d : Device) (n : PortNum) (p : Port) :
    (d.setPort n p).ports = d.ports.set n p := rfl
@[simp] theorem Device.setPort_engine (d : Device) (n : PortNum) (p : Port) :
    (d.setPort n p).engine = d.engine := rfl
@[simp] theorem Device.setPort_events (d : Device) (n : PortNum) (p : Port) :
    (d.setPort n p).events = d.events := rfl
@[simp] theorem Device.setPort_timeBase (d : Device) (n : PortNum) (p : Port) :
    (d.setPort n p).timeBase = d.timeBase := rfl
@[simp] theorem Device.setPort_freeIndex (d : Device) (n : PortNum) (p : Port) :
    (d.setPort n p).freeIndex = d.freeIndex := rfl
@[simp] theorem Device.setPort_surface (d : Device) (n : PortNum) (p : Port) (j : Slot) : (d.setPort n p).surface j
    = d.surface j := rfl

/-! `placeRecord` -/

@[simp] theorem Device.placeRecord_pins (d : Device) (r : CompletionRecord) : (d.placeRecord r).pins = d.pins := rfl
@[simp] theorem Device.placeRecord_control (d : Device) (r : CompletionRecord) :
    (d.placeRecord r).control = { d.control with completions := d.control.completions ++ [r] } := rfl
@[simp] theorem Device.placeRecord_pixelRead (d : Device) (r : CompletionRecord) :
    (d.placeRecord r).pixelRead = d.pixelRead := rfl
@[simp] theorem Device.placeRecord_surfaces (d : Device) (r : CompletionRecord) :
    (d.placeRecord r).surfaces = d.surfaces := rfl
@[simp] theorem Device.placeRecord_freeSlabs (d : Device) (r : CompletionRecord) :
    (d.placeRecord r).freeSlabs = d.freeSlabs := rfl
@[simp] theorem Device.placeRecord_store (d : Device) (r : CompletionRecord) :
    (d.placeRecord r).store = d.store := rfl
@[simp] theorem Device.placeRecord_rotation (d : Device) (r : CompletionRecord) :
    (d.placeRecord r).rotation = d.rotation := rfl
@[simp] theorem Device.placeRecord_staging (d : Device) (r : CompletionRecord) :
    (d.placeRecord r).staging = d.staging := rfl
@[simp] theorem Device.placeRecord_layers (d : Device) (r : CompletionRecord) :
    (d.placeRecord r).layers = d.layers := rfl
@[simp] theorem Device.placeRecord_scan (d : Device) (r : CompletionRecord) : (d.placeRecord r).scan = d.scan := rfl
@[simp] theorem Device.placeRecord_ports (d : Device) (r : CompletionRecord) :
    (d.placeRecord r).ports = d.ports := rfl
@[simp] theorem Device.placeRecord_engine (d : Device) (r : CompletionRecord) :
    (d.placeRecord r).engine = d.engine := rfl
@[simp] theorem Device.placeRecord_events (d : Device) (r : CompletionRecord) :
    (d.placeRecord r).events = d.events := rfl
@[simp] theorem Device.placeRecord_timeBase (d : Device) (r : CompletionRecord) :
    (d.placeRecord r).timeBase = d.timeBase := rfl
@[simp] theorem Device.placeRecord_freeIndex (d : Device) (r : CompletionRecord) :
    (d.placeRecord r).freeIndex = d.freeIndex := rfl
@[simp] theorem Device.placeRecord_port (d : Device) (r : CompletionRecord) (n : PortNum) : (d.placeRecord r).port n
    = d.port n := rfl
@[simp] theorem Device.placeRecord_surface (d : Device) (r : CompletionRecord) (j : Slot) :
    (d.placeRecord r).surface j = d.surface j := rfl

/-! `setData` -/

@[simp] theorem Device.setData_pins (d : Device) (w : Option Word) :
    (d.setData w).pins = { d.pins with dataOut := w } := rfl
@[simp] theorem Device.setData_control (d : Device) (w : Option Word) : (d.setData w).control = d.control := rfl
@[simp] theorem Device.setData_pixelRead (d : Device) (w : Option Word) :
    (d.setData w).pixelRead = d.pixelRead := rfl
@[simp] theorem Device.setData_surfaces (d : Device) (w : Option Word) : (d.setData w).surfaces = d.surfaces := rfl
@[simp] theorem Device.setData_freeSlabs (d : Device) (w : Option Word) :
    (d.setData w).freeSlabs = d.freeSlabs := rfl
@[simp] theorem Device.setData_store (d : Device) (w : Option Word) : (d.setData w).store = d.store := rfl
@[simp] theorem Device.setData_rotation (d : Device) (w : Option Word) : (d.setData w).rotation = d.rotation := rfl
@[simp] theorem Device.setData_staging (d : Device) (w : Option Word) : (d.setData w).staging = d.staging := rfl
@[simp] theorem Device.setData_layers (d : Device) (w : Option Word) : (d.setData w).layers = d.layers := rfl
@[simp] theorem Device.setData_scan (d : Device) (w : Option Word) : (d.setData w).scan = d.scan := rfl
@[simp] theorem Device.setData_ports (d : Device) (w : Option Word) : (d.setData w).ports = d.ports := rfl
@[simp] theorem Device.setData_engine (d : Device) (w : Option Word) : (d.setData w).engine = d.engine := rfl
@[simp] theorem Device.setData_events (d : Device) (w : Option Word) : (d.setData w).events = d.events := rfl
@[simp] theorem Device.setData_timeBase (d : Device) (w : Option Word) : (d.setData w).timeBase = d.timeBase := rfl
@[simp] theorem Device.setData_freeIndex (d : Device) (w : Option Word) :
    (d.setData w).freeIndex = d.freeIndex := rfl
@[simp] theorem Device.setData_port (d : Device) (w : Option Word) (n : PortNum) : (d.setData w).port n = d.port n :=
    rfl
@[simp] theorem Device.setData_surface (d : Device) (w : Option Word) (j : Slot) : (d.setData w).surface j
    = d.surface j := rfl

/-! `written` -/

@[simp] theorem Device.written_pins (d : Device) : (d.written).pins = { d.pins with dataOut := none } := rfl
@[simp] theorem Device.written_control (d : Device) : (d.written).control = d.control := rfl
@[simp] theorem Device.written_pixelRead (d : Device) : (d.written).pixelRead = d.pixelRead := rfl
@[simp] theorem Device.written_surfaces (d : Device) : (d.written).surfaces = d.surfaces := rfl
@[simp] theorem Device.written_freeSlabs (d : Device) : (d.written).freeSlabs = d.freeSlabs := rfl
@[simp] theorem Device.written_store (d : Device) : (d.written).store = d.store := rfl
@[simp] theorem Device.written_rotation (d : Device) : (d.written).rotation = d.rotation := rfl
@[simp] theorem Device.written_staging (d : Device) : (d.written).staging = d.staging := rfl
@[simp] theorem Device.written_layers (d : Device) : (d.written).layers = d.layers := rfl
@[simp] theorem Device.written_scan (d : Device) : (d.written).scan = d.scan := rfl
@[simp] theorem Device.written_ports (d : Device) : (d.written).ports = d.ports := rfl
@[simp] theorem Device.written_engine (d : Device) : (d.written).engine = d.engine := rfl
@[simp] theorem Device.written_events (d : Device) : (d.written).events = d.events := rfl
@[simp] theorem Device.written_timeBase (d : Device) : (d.written).timeBase = d.timeBase := rfl
@[simp] theorem Device.written_freeIndex (d : Device) : (d.written).freeIndex = d.freeIndex := rfl
@[simp] theorem Device.written_port (d : Device) (n : PortNum) : (d.written).port n = d.port n := rfl
@[simp] theorem Device.written_surface (d : Device) (j : Slot) : (d.written).surface j = d.surface j := rfl

/-! `latch` -/

@[simp] theorem Device.latch_pins (d : Device) (e : Event) : (d.latch e).pins = d.pins := rfl
@[simp] theorem Device.latch_control (d : Device) (e : Event) : (d.latch e).control = d.control := rfl
@[simp] theorem Device.latch_pixelRead (d : Device) (e : Event) : (d.latch e).pixelRead = d.pixelRead := rfl
@[simp] theorem Device.latch_surfaces (d : Device) (e : Event) : (d.latch e).surfaces = d.surfaces := rfl
@[simp] theorem Device.latch_freeSlabs (d : Device) (e : Event) : (d.latch e).freeSlabs = d.freeSlabs := rfl
@[simp] theorem Device.latch_store (d : Device) (e : Event) : (d.latch e).store = d.store := rfl
@[simp] theorem Device.latch_rotation (d : Device) (e : Event) : (d.latch e).rotation = d.rotation := rfl
@[simp] theorem Device.latch_staging (d : Device) (e : Event) : (d.latch e).staging = d.staging := rfl
@[simp] theorem Device.latch_layers (d : Device) (e : Event) : (d.latch e).layers = d.layers := rfl
@[simp] theorem Device.latch_scan (d : Device) (e : Event) : (d.latch e).scan = d.scan := rfl
@[simp] theorem Device.latch_ports (d : Device) (e : Event) : (d.latch e).ports = d.ports := rfl
@[simp] theorem Device.latch_engine (d : Device) (e : Event) : (d.latch e).engine = d.engine := rfl
@[simp] theorem Device.latch_events (d : Device) (e : Event) :
    (d.latch e).events = { d.events with latched := d.events.latched ||| bitsAt 1 (eventBit e) } := rfl
@[simp] theorem Device.latch_timeBase (d : Device) (e : Event) : (d.latch e).timeBase = d.timeBase := rfl
@[simp] theorem Device.latch_freeIndex (d : Device) (e : Event) : (d.latch e).freeIndex = d.freeIndex := rfl
@[simp] theorem Device.latch_port (d : Device) (e : Event) (n : PortNum) : (d.latch e).port n = d.port n := rfl
@[simp] theorem Device.latch_surface (d : Device) (e : Event) (j : Slot) : (d.latch e).surface j = d.surface j := rfl

/-! `clearEvents` -/

@[simp] theorem Device.clearEvents_pins (d : Device) (w : Word) : (d.clearEvents w).pins = d.pins := rfl
@[simp] theorem Device.clearEvents_control (d : Device) (w : Word) : (d.clearEvents w).control = d.control := rfl
@[simp] theorem Device.clearEvents_pixelRead (d : Device) (w : Word) :
    (d.clearEvents w).pixelRead = d.pixelRead := rfl
@[simp] theorem Device.clearEvents_surfaces (d : Device) (w : Word) : (d.clearEvents w).surfaces = d.surfaces := rfl
@[simp] theorem Device.clearEvents_freeSlabs (d : Device) (w : Word) :
    (d.clearEvents w).freeSlabs = d.freeSlabs := rfl
@[simp] theorem Device.clearEvents_store (d : Device) (w : Word) : (d.clearEvents w).store = d.store := rfl
@[simp] theorem Device.clearEvents_rotation (d : Device) (w : Word) : (d.clearEvents w).rotation = d.rotation := rfl
@[simp] theorem Device.clearEvents_staging (d : Device) (w : Word) : (d.clearEvents w).staging = d.staging := rfl
@[simp] theorem Device.clearEvents_layers (d : Device) (w : Word) : (d.clearEvents w).layers = d.layers := rfl
@[simp] theorem Device.clearEvents_scan (d : Device) (w : Word) : (d.clearEvents w).scan = d.scan := rfl
@[simp] theorem Device.clearEvents_ports (d : Device) (w : Word) : (d.clearEvents w).ports = d.ports := rfl
@[simp] theorem Device.clearEvents_engine (d : Device) (w : Word) : (d.clearEvents w).engine = d.engine := rfl
@[simp] theorem Device.clearEvents_events (d : Device) (w : Word) :
    (d.clearEvents w).events = { d.events with latched := d.events.latched &&& ~~~w } := rfl
@[simp] theorem Device.clearEvents_timeBase (d : Device) (w : Word) : (d.clearEvents w).timeBase = d.timeBase := rfl
@[simp] theorem Device.clearEvents_freeIndex (d : Device) (w : Word) :
    (d.clearEvents w).freeIndex = d.freeIndex := rfl
@[simp] theorem Device.clearEvents_port (d : Device) (w : Word) (n : PortNum) : (d.clearEvents w).port n = d.port n :=
    rfl
@[simp] theorem Device.clearEvents_surface (d : Device) (w : Word) (j : Slot) : (d.clearEvents w).surface j
    = d.surface j := rfl

/-! `setEnables` -/

@[simp] theorem Device.setEnables_pins (d : Device) (w : Word) : (d.setEnables w).pins = d.pins := rfl
@[simp] theorem Device.setEnables_control (d : Device) (w : Word) : (d.setEnables w).control = d.control := rfl
@[simp] theorem Device.setEnables_pixelRead (d : Device) (w : Word) : (d.setEnables w).pixelRead = d.pixelRead := rfl
@[simp] theorem Device.setEnables_surfaces (d : Device) (w : Word) : (d.setEnables w).surfaces = d.surfaces := rfl
@[simp] theorem Device.setEnables_freeSlabs (d : Device) (w : Word) : (d.setEnables w).freeSlabs = d.freeSlabs := rfl
@[simp] theorem Device.setEnables_store (d : Device) (w : Word) : (d.setEnables w).store = d.store := rfl
@[simp] theorem Device.setEnables_rotation (d : Device) (w : Word) : (d.setEnables w).rotation = d.rotation := rfl
@[simp] theorem Device.setEnables_staging (d : Device) (w : Word) : (d.setEnables w).staging = d.staging := rfl
@[simp] theorem Device.setEnables_layers (d : Device) (w : Word) : (d.setEnables w).layers = d.layers := rfl
@[simp] theorem Device.setEnables_scan (d : Device) (w : Word) : (d.setEnables w).scan = d.scan := rfl
@[simp] theorem Device.setEnables_ports (d : Device) (w : Word) : (d.setEnables w).ports = d.ports := rfl
@[simp] theorem Device.setEnables_engine (d : Device) (w : Word) : (d.setEnables w).engine = d.engine := rfl
@[simp] theorem Device.setEnables_events (d : Device) (w : Word) :
    (d.setEnables w).events = { d.events with enabled := w &&& memberMask } := rfl
@[simp] theorem Device.setEnables_timeBase (d : Device) (w : Word) : (d.setEnables w).timeBase = d.timeBase := rfl
@[simp] theorem Device.setEnables_freeIndex (d : Device) (w : Word) : (d.setEnables w).freeIndex = d.freeIndex := rfl
@[simp] theorem Device.setEnables_port (d : Device) (w : Word) (n : PortNum) : (d.setEnables w).port n = d.port n :=
    rfl
@[simp] theorem Device.setEnables_surface (d : Device) (w : Word) (j : Slot) : (d.setEnables w).surface j
    = d.surface j := rfl

/-! `grantTo` -/

@[simp] theorem Device.grantTo_pins (d : Device) (c : RotatingClient) : (d.grantTo c).pins = d.pins := rfl
@[simp] theorem Device.grantTo_control (d : Device) (c : RotatingClient) : (d.grantTo c).control = d.control := rfl
@[simp] theorem Device.grantTo_pixelRead (d : Device) (c : RotatingClient) :
    (d.grantTo c).pixelRead = d.pixelRead := rfl
@[simp] theorem Device.grantTo_surfaces (d : Device) (c : RotatingClient) :
    (d.grantTo c).surfaces = d.surfaces := rfl
@[simp] theorem Device.grantTo_freeSlabs (d : Device) (c : RotatingClient) :
    (d.grantTo c).freeSlabs = d.freeSlabs := rfl
@[simp] theorem Device.grantTo_store (d : Device) (c : RotatingClient) : (d.grantTo c).store = d.store := rfl
@[simp] theorem Device.grantTo_rotation (d : Device) (c : RotatingClient) : (d.grantTo c).rotation = c := rfl
@[simp] theorem Device.grantTo_staging (d : Device) (c : RotatingClient) : (d.grantTo c).staging = d.staging := rfl
@[simp] theorem Device.grantTo_layers (d : Device) (c : RotatingClient) : (d.grantTo c).layers = d.layers := rfl
@[simp] theorem Device.grantTo_scan (d : Device) (c : RotatingClient) : (d.grantTo c).scan = d.scan := rfl
@[simp] theorem Device.grantTo_ports (d : Device) (c : RotatingClient) : (d.grantTo c).ports = d.ports := rfl
@[simp] theorem Device.grantTo_engine (d : Device) (c : RotatingClient) : (d.grantTo c).engine = d.engine := rfl
@[simp] theorem Device.grantTo_events (d : Device) (c : RotatingClient) : (d.grantTo c).events = d.events := rfl
@[simp] theorem Device.grantTo_timeBase (d : Device) (c : RotatingClient) :
    (d.grantTo c).timeBase = d.timeBase := rfl
@[simp] theorem Device.grantTo_freeIndex (d : Device) (c : RotatingClient) :
    (d.grantTo c).freeIndex = d.freeIndex := rfl
@[simp] theorem Device.grantTo_port (d : Device) (c : RotatingClient) (n : PortNum) : (d.grantTo c).port n
    = d.port n := rfl
@[simp] theorem Device.grantTo_surface (d : Device) (c : RotatingClient) (j : Slot) : (d.grantTo c).surface j
    = d.surface j := rfl

/-! `storePixel` -/

@[simp] theorem Device.storePixel_pins (d : Device) (r : WriteRequest) : (d.storePixel r).pins = d.pins := rfl
@[simp] theorem Device.storePixel_control (d : Device) (r : WriteRequest) :
    (d.storePixel r).control = d.control := rfl
@[simp] theorem Device.storePixel_pixelRead (d : Device) (r : WriteRequest) :
    (d.storePixel r).pixelRead = d.pixelRead := rfl
@[simp] theorem Device.storePixel_surfaces (d : Device) (r : WriteRequest) :
    (d.storePixel r).surfaces = d.surfaces := rfl
@[simp] theorem Device.storePixel_freeSlabs (d : Device) (r : WriteRequest) :
    (d.storePixel r).freeSlabs = d.freeSlabs := rfl
@[simp] theorem Device.storePixel_store (d : Device) (r : WriteRequest) :
    (d.storePixel r).store = d.store.writePixel r.pos r.pixel := rfl
@[simp] theorem Device.storePixel_rotation (d : Device) (r : WriteRequest) :
    (d.storePixel r).rotation = d.rotation := rfl
@[simp] theorem Device.storePixel_staging (d : Device) (r : WriteRequest) :
    (d.storePixel r).staging = d.staging := rfl
@[simp] theorem Device.storePixel_layers (d : Device) (r : WriteRequest) : (d.storePixel r).layers = d.layers := rfl
@[simp] theorem Device.storePixel_scan (d : Device) (r : WriteRequest) : (d.storePixel r).scan = d.scan := rfl
@[simp] theorem Device.storePixel_ports (d : Device) (r : WriteRequest) : (d.storePixel r).ports = d.ports := rfl
@[simp] theorem Device.storePixel_engine (d : Device) (r : WriteRequest) : (d.storePixel r).engine = d.engine := rfl
@[simp] theorem Device.storePixel_events (d : Device) (r : WriteRequest) : (d.storePixel r).events = d.events := rfl
@[simp] theorem Device.storePixel_timeBase (d : Device) (r : WriteRequest) :
    (d.storePixel r).timeBase = d.timeBase := rfl
@[simp] theorem Device.storePixel_freeIndex (d : Device) (r : WriteRequest) :
    (d.storePixel r).freeIndex = d.freeIndex := rfl
@[simp] theorem Device.storePixel_port (d : Device) (r : WriteRequest) (n : PortNum) : (d.storePixel r).port n
    = d.port n := rfl
@[simp] theorem Device.storePixel_surface (d : Device) (r : WriteRequest) (j : Slot) : (d.storePixel r).surface j
    = d.surface j := rfl

/-! `setRequest` -/

@[simp] theorem Device.setRequest_pins (d : Device) (r : Option EngineRequest) :
    (d.setRequest r).pins = d.pins := rfl
@[simp] theorem Device.setRequest_control (d : Device) (r : Option EngineRequest) :
    (d.setRequest r).control = d.control := rfl
@[simp] theorem Device.setRequest_pixelRead (d : Device) (r : Option EngineRequest) :
    (d.setRequest r).pixelRead = d.pixelRead := rfl
@[simp] theorem Device.setRequest_surfaces (d : Device) (r : Option EngineRequest) :
    (d.setRequest r).surfaces = d.surfaces := rfl
@[simp] theorem Device.setRequest_freeSlabs (d : Device) (r : Option EngineRequest) :
    (d.setRequest r).freeSlabs = d.freeSlabs := rfl
@[simp] theorem Device.setRequest_store (d : Device) (r : Option EngineRequest) :
    (d.setRequest r).store = d.store := rfl
@[simp] theorem Device.setRequest_rotation (d : Device) (r : Option EngineRequest) :
    (d.setRequest r).rotation = d.rotation := rfl
@[simp] theorem Device.setRequest_staging (d : Device) (r : Option EngineRequest) :
    (d.setRequest r).staging = d.staging := rfl
@[simp] theorem Device.setRequest_layers (d : Device) (r : Option EngineRequest) :
    (d.setRequest r).layers = d.layers := rfl
@[simp] theorem Device.setRequest_scan (d : Device) (r : Option EngineRequest) :
    (d.setRequest r).scan = d.scan := rfl
@[simp] theorem Device.setRequest_ports (d : Device) (r : Option EngineRequest) :
    (d.setRequest r).ports = d.ports := rfl
@[simp] theorem Device.setRequest_engine (d : Device) (r : Option EngineRequest) :
    (d.setRequest r).engine = { d.engine with request := r } := rfl
@[simp] theorem Device.setRequest_events (d : Device) (r : Option EngineRequest) :
    (d.setRequest r).events = d.events := rfl
@[simp] theorem Device.setRequest_timeBase (d : Device) (r : Option EngineRequest) :
    (d.setRequest r).timeBase = d.timeBase := rfl
@[simp] theorem Device.setRequest_freeIndex (d : Device) (r : Option EngineRequest) :
    (d.setRequest r).freeIndex = d.freeIndex := rfl
@[simp] theorem Device.setRequest_port (d : Device) (r : Option EngineRequest) (n : PortNum) :
    (d.setRequest r).port n = d.port n := rfl
@[simp] theorem Device.setRequest_surface (d : Device) (r : Option EngineRequest) (j : Slot) :
    (d.setRequest r).surface j = d.surface j := rfl

/-! `updateRunning` -/

@[simp] theorem Device.updateRunning_pins (d : Device) (f : Job → Job) : (d.updateRunning f).pins = d.pins := rfl
@[simp] theorem Device.updateRunning_control (d : Device) (f : Job → Job) :
    (d.updateRunning f).control = d.control := rfl
@[simp] theorem Device.updateRunning_pixelRead (d : Device) (f : Job → Job) :
    (d.updateRunning f).pixelRead = d.pixelRead := rfl
@[simp] theorem Device.updateRunning_surfaces (d : Device) (f : Job → Job) :
    (d.updateRunning f).surfaces = d.surfaces := rfl
@[simp] theorem Device.updateRunning_freeSlabs (d : Device) (f : Job → Job) :
    (d.updateRunning f).freeSlabs = d.freeSlabs := rfl
@[simp] theorem Device.updateRunning_store (d : Device) (f : Job → Job) : (d.updateRunning f).store = d.store := rfl
@[simp] theorem Device.updateRunning_rotation (d : Device) (f : Job → Job) :
    (d.updateRunning f).rotation = d.rotation := rfl
@[simp] theorem Device.updateRunning_staging (d : Device) (f : Job → Job) :
    (d.updateRunning f).staging = d.staging := rfl
@[simp] theorem Device.updateRunning_layers (d : Device) (f : Job → Job) :
    (d.updateRunning f).layers = d.layers := rfl
@[simp] theorem Device.updateRunning_scan (d : Device) (f : Job → Job) : (d.updateRunning f).scan = d.scan := rfl
@[simp] theorem Device.updateRunning_ports (d : Device) (f : Job → Job) : (d.updateRunning f).ports = d.ports := rfl
@[simp] theorem Device.updateRunning_engine (d : Device) (f : Job → Job) :
    (d.updateRunning f).engine = { d.engine with jobs := updateFirst Job.isRunning f d.engine.jobs } := rfl
@[simp] theorem Device.updateRunning_events (d : Device) (f : Job → Job) :
    (d.updateRunning f).events = d.events := rfl
@[simp] theorem Device.updateRunning_timeBase (d : Device) (f : Job → Job) :
    (d.updateRunning f).timeBase = d.timeBase := rfl
@[simp] theorem Device.updateRunning_freeIndex (d : Device) (f : Job → Job) :
    (d.updateRunning f).freeIndex = d.freeIndex := rfl
@[simp] theorem Device.updateRunning_port (d : Device) (f : Job → Job) (n : PortNum) : (d.updateRunning f).port n
    = d.port n := rfl
@[simp] theorem Device.updateRunning_surface (d : Device) (f : Job → Job) (j : Slot) : (d.updateRunning f).surface j
    = d.surface j := rfl

/-! `markDirty` -/

@[simp] theorem Device.markDirty_pins (d : Device) : (d.markDirty).pins = d.pins := rfl
@[simp] theorem Device.markDirty_control (d : Device) : (d.markDirty).control = d.control := rfl
@[simp] theorem Device.markDirty_pixelRead (d : Device) : (d.markDirty).pixelRead = d.pixelRead := rfl
@[simp] theorem Device.markDirty_surfaces (d : Device) : (d.markDirty).surfaces = d.surfaces := rfl
@[simp] theorem Device.markDirty_freeSlabs (d : Device) : (d.markDirty).freeSlabs = d.freeSlabs := rfl
@[simp] theorem Device.markDirty_store (d : Device) : (d.markDirty).store = d.store := rfl
@[simp] theorem Device.markDirty_rotation (d : Device) : (d.markDirty).rotation = d.rotation := rfl
@[simp] theorem Device.markDirty_staging (d : Device) :
    (d.markDirty).staging = { d.staging with dirty := true } := rfl
@[simp] theorem Device.markDirty_layers (d : Device) : (d.markDirty).layers = d.layers := rfl
@[simp] theorem Device.markDirty_scan (d : Device) : (d.markDirty).scan = d.scan := rfl
@[simp] theorem Device.markDirty_ports (d : Device) : (d.markDirty).ports = d.ports := rfl
@[simp] theorem Device.markDirty_engine (d : Device) : (d.markDirty).engine = d.engine := rfl
@[simp] theorem Device.markDirty_events (d : Device) : (d.markDirty).events = d.events := rfl
@[simp] theorem Device.markDirty_timeBase (d : Device) : (d.markDirty).timeBase = d.timeBase := rfl
@[simp] theorem Device.markDirty_freeIndex (d : Device) : (d.markDirty).freeIndex = d.freeIndex := rfl
@[simp] theorem Device.markDirty_port (d : Device) (n : PortNum) : (d.markDirty).port n = d.port n := rfl
@[simp] theorem Device.markDirty_surface (d : Device) (j : Slot) : (d.markDirty).surface j = d.surface j := rfl

/-! `setPending` -/

@[simp] theorem Device.setPending_pins (d : Device) (order : List Handle) : (d.setPending order).pins = d.pins := rfl
@[simp] theorem Device.setPending_control (d : Device) (order : List Handle) :
    (d.setPending order).control = d.control := rfl
@[simp] theorem Device.setPending_pixelRead (d : Device) (order : List Handle) :
    (d.setPending order).pixelRead = d.pixelRead := rfl
@[simp] theorem Device.setPending_surfaces (d : Device) (order : List Handle) :
    (d.setPending order).surfaces = d.surfaces := rfl
@[simp] theorem Device.setPending_freeSlabs (d : Device) (order : List Handle) :
    (d.setPending order).freeSlabs = d.freeSlabs := rfl
@[simp] theorem Device.setPending_store (d : Device) (order : List Handle) :
    (d.setPending order).store = d.store := rfl
@[simp] theorem Device.setPending_rotation (d : Device) (order : List Handle) :
    (d.setPending order).rotation = d.rotation := rfl
@[simp] theorem Device.setPending_staging (d : Device) (order : List Handle) :
    (d.setPending order).staging = { d.staging with order := order, dirty := true } := rfl
@[simp] theorem Device.setPending_layers (d : Device) (order : List Handle) :
    (d.setPending order).layers = d.layers := rfl
@[simp] theorem Device.setPending_scan (d : Device) (order : List Handle) : (d.setPending order).scan = d.scan := rfl
@[simp] theorem Device.setPending_ports (d : Device) (order : List Handle) :
    (d.setPending order).ports = d.ports := rfl
@[simp] theorem Device.setPending_engine (d : Device) (order : List Handle) :
    (d.setPending order).engine = d.engine := rfl
@[simp] theorem Device.setPending_events (d : Device) (order : List Handle) :
    (d.setPending order).events = d.events := rfl
@[simp] theorem Device.setPending_timeBase (d : Device) (order : List Handle) :
    (d.setPending order).timeBase = d.timeBase := rfl
@[simp] theorem Device.setPending_freeIndex (d : Device) (order : List Handle) :
    (d.setPending order).freeIndex = d.freeIndex := rfl
@[simp] theorem Device.setPending_port (d : Device) (order : List Handle) (n : PortNum) :
    (d.setPending order).port n = d.port n := rfl
@[simp] theorem Device.setPending_surface (d : Device) (order : List Handle) (j : Slot) :
    (d.setPending order).surface j = d.surface j := rfl

/-! `dropFromPending` -/

@[simp] theorem Device.dropFromPending_pins (d : Device) (h : Handle) : (d.dropFromPending h).pins = d.pins := rfl
@[simp] theorem Device.dropFromPending_control (d : Device) (h : Handle) :
    (d.dropFromPending h).control = d.control := rfl
@[simp] theorem Device.dropFromPending_pixelRead (d : Device) (h : Handle) :
    (d.dropFromPending h).pixelRead = d.pixelRead := rfl
@[simp] theorem Device.dropFromPending_surfaces (d : Device) (h : Handle) :
    (d.dropFromPending h).surfaces = d.surfaces := rfl
@[simp] theorem Device.dropFromPending_freeSlabs (d : Device) (h : Handle) :
    (d.dropFromPending h).freeSlabs = d.freeSlabs := rfl
@[simp] theorem Device.dropFromPending_store (d : Device) (h : Handle) : (d.dropFromPending h).store = d.store := rfl
@[simp] theorem Device.dropFromPending_rotation (d : Device) (h : Handle) :
    (d.dropFromPending h).rotation = d.rotation := rfl
@[simp] theorem Device.dropFromPending_staging (d : Device) (h : Handle) :
    (d.dropFromPending h).staging = { d.staging with order := d.staging.order.erase h } := rfl
@[simp] theorem Device.dropFromPending_layers (d : Device) (h : Handle) :
    (d.dropFromPending h).layers = d.layers := rfl
@[simp] theorem Device.dropFromPending_scan (d : Device) (h : Handle) : (d.dropFromPending h).scan = d.scan := rfl
@[simp] theorem Device.dropFromPending_ports (d : Device) (h : Handle) : (d.dropFromPending h).ports = d.ports := rfl
@[simp] theorem Device.dropFromPending_engine (d : Device) (h : Handle) :
    (d.dropFromPending h).engine = d.engine := rfl
@[simp] theorem Device.dropFromPending_events (d : Device) (h : Handle) :
    (d.dropFromPending h).events = d.events := rfl
@[simp] theorem Device.dropFromPending_timeBase (d : Device) (h : Handle) :
    (d.dropFromPending h).timeBase = d.timeBase := rfl
@[simp] theorem Device.dropFromPending_freeIndex (d : Device) (h : Handle) :
    (d.dropFromPending h).freeIndex = d.freeIndex := rfl
@[simp] theorem Device.dropFromPending_port (d : Device) (h : Handle) (n : PortNum) : (d.dropFromPending h).port n
    = d.port n := rfl
@[simp] theorem Device.dropFromPending_surface (d : Device) (h : Handle) (j : Slot) :
    (d.dropFromPending h).surface j = d.surface j := rfl

/-! `setSlotState` -/

@[simp] theorem Device.setSlotState_pins (d : Device) (i : Slot) (st : SlotState) :
    (d.setSlotState i st).pins = d.pins := rfl
@[simp] theorem Device.setSlotState_control (d : Device) (i : Slot) (st : SlotState) :
    (d.setSlotState i st).control = d.control := rfl
@[simp] theorem Device.setSlotState_pixelRead (d : Device) (i : Slot) (st : SlotState) :
    (d.setSlotState i st).pixelRead = d.pixelRead := rfl
@[simp] theorem Device.setSlotState_surfaces (d : Device) (i : Slot) (st : SlotState) :
    (d.setSlotState i st).surfaces = d.surfaces.set i { d.surface i with state := st } := rfl
@[simp] theorem Device.setSlotState_freeSlabs (d : Device) (i : Slot) (st : SlotState) :
    (d.setSlotState i st).freeSlabs = d.freeSlabs := rfl
@[simp] theorem Device.setSlotState_store (d : Device) (i : Slot) (st : SlotState) :
    (d.setSlotState i st).store = d.store := rfl
@[simp] theorem Device.setSlotState_rotation (d : Device) (i : Slot) (st : SlotState) :
    (d.setSlotState i st).rotation = d.rotation := rfl
@[simp] theorem Device.setSlotState_staging (d : Device) (i : Slot) (st : SlotState) :
    (d.setSlotState i st).staging = d.staging := rfl
@[simp] theorem Device.setSlotState_layers (d : Device) (i : Slot) (st : SlotState) :
    (d.setSlotState i st).layers = d.layers := rfl
@[simp] theorem Device.setSlotState_scan (d : Device) (i : Slot) (st : SlotState) :
    (d.setSlotState i st).scan = d.scan := rfl
@[simp] theorem Device.setSlotState_ports (d : Device) (i : Slot) (st : SlotState) :
    (d.setSlotState i st).ports = d.ports := rfl
@[simp] theorem Device.setSlotState_engine (d : Device) (i : Slot) (st : SlotState) :
    (d.setSlotState i st).engine = d.engine := rfl
@[simp] theorem Device.setSlotState_events (d : Device) (i : Slot) (st : SlotState) :
    (d.setSlotState i st).events = d.events := rfl
@[simp] theorem Device.setSlotState_timeBase (d : Device) (i : Slot) (st : SlotState) :
    (d.setSlotState i st).timeBase = d.timeBase := rfl
@[simp] theorem Device.setSlotState_freeIndex (d : Device) (i : Slot) (st : SlotState) :
    (d.setSlotState i st).freeIndex = d.freeIndex := rfl
@[simp] theorem Device.setSlotState_port (d : Device) (i : Slot) (st : SlotState) (n : PortNum) :
    (d.setSlotState i st).port n = d.port n := rfl

/-! `answering` -/

@[simp] theorem Device.answering_pins (d : Device) (c : Byte) (r : Reply) :
    (d.answering c r).pins = { d.pins with dataOut := none } := rfl
@[simp] theorem Device.answering_control (d : Device) (c : Byte) (r : Reply) :
    (d.answering c r).control
      = { d.control with
          nextSeq := d.control.nextSeq + 1
          responses := d.control.responses ++ [⟨d.control.nextSeq, r.status, c, r.results⟩] } := rfl
@[simp] theorem Device.answering_pixelRead (d : Device) (c : Byte) (r : Reply) :
    (d.answering c r).pixelRead = d.pixelRead := rfl
@[simp] theorem Device.answering_surfaces (d : Device) (c : Byte) (r : Reply) :
    (d.answering c r).surfaces = d.surfaces := rfl
@[simp] theorem Device.answering_freeSlabs (d : Device) (c : Byte) (r : Reply) :
    (d.answering c r).freeSlabs = d.freeSlabs := rfl
@[simp] theorem Device.answering_store (d : Device) (c : Byte) (r : Reply) : (d.answering c r).store = d.store := rfl
@[simp] theorem Device.answering_rotation (d : Device) (c : Byte) (r : Reply) :
    (d.answering c r).rotation = d.rotation := rfl
@[simp] theorem Device.answering_staging (d : Device) (c : Byte) (r : Reply) :
    (d.answering c r).staging = d.staging := rfl
@[simp] theorem Device.answering_layers (d : Device) (c : Byte) (r : Reply) :
    (d.answering c r).layers = d.layers := rfl
@[simp] theorem Device.answering_scan (d : Device) (c : Byte) (r : Reply) : (d.answering c r).scan = d.scan := rfl
@[simp] theorem Device.answering_ports (d : Device) (c : Byte) (r : Reply) : (d.answering c r).ports = d.ports := rfl
@[simp] theorem Device.answering_engine (d : Device) (c : Byte) (r : Reply) :
    (d.answering c r).engine = d.engine := rfl
@[simp] theorem Device.answering_events (d : Device) (c : Byte) (r : Reply) :
    (d.answering c r).events = d.events := rfl
@[simp] theorem Device.answering_timeBase (d : Device) (c : Byte) (r : Reply) :
    (d.answering c r).timeBase = d.timeBase := rfl
@[simp] theorem Device.answering_freeIndex (d : Device) (c : Byte) (r : Reply) :
    (d.answering c r).freeIndex = d.freeIndex := rfl
@[simp] theorem Device.answering_port (d : Device) (c : Byte) (r : Reply) (n : PortNum) : (d.answering c r).port n
    = d.port n := rfl
@[simp] theorem Device.answering_surface (d : Device) (c : Byte) (r : Reply) (j : Slot) :
    (d.answering c r).surface j = d.surface j := rfl

/-! `endScan` -/

@[simp] theorem Device.endScan_pins (d : Device) : (d.endScan).pins = d.pins := rfl
@[simp] theorem Device.endScan_control (d : Device) : (d.endScan).control = d.control := rfl
@[simp] theorem Device.endScan_pixelRead (d : Device) : (d.endScan).pixelRead = d.pixelRead := rfl
@[simp] theorem Device.endScan_surfaces (d : Device) : (d.endScan).surfaces = d.surfaces := rfl
@[simp] theorem Device.endScan_freeSlabs (d : Device) : (d.endScan).freeSlabs = d.freeSlabs := rfl
@[simp] theorem Device.endScan_store (d : Device) : (d.endScan).store = d.store := rfl
@[simp] theorem Device.endScan_rotation (d : Device) : (d.endScan).rotation = d.rotation := rfl
@[simp] theorem Device.endScan_staging (d : Device) : (d.endScan).staging = d.staging := rfl
@[simp] theorem Device.endScan_layers (d : Device) : (d.endScan).layers = d.layers := rfl
@[simp] theorem Device.endScan_scan (d : Device) :
    (d.endScan).scan = { d.scan with
      state := .stopped, position := none, driven := 0, composing := 0, reads := [], opening := false } := rfl
@[simp] theorem Device.endScan_ports (d : Device) : (d.endScan).ports = d.ports := rfl
@[simp] theorem Device.endScan_engine (d : Device) : (d.endScan).engine = d.engine := rfl
@[simp] theorem Device.endScan_events (d : Device) :
    (d.endScan).events = { d.events with latched := d.events.latched ||| bitsAt 1 (eventBit .panelStopped) } := rfl
@[simp] theorem Device.endScan_timeBase (d : Device) : (d.endScan).timeBase = d.timeBase := rfl
@[simp] theorem Device.endScan_freeIndex (d : Device) : (d.endScan).freeIndex = d.freeIndex := rfl
@[simp] theorem Device.endScan_port (d : Device) (n : PortNum) : (d.endScan).port n = d.port n := rfl
@[simp] theorem Device.endScan_surface (d : Device) (j : Slot) : (d.endScan).surface j = d.surface j := rfl

end Sys2Proof.Machine
end

