-- ==== Sys2Proof/Laws/ApplyPoint.lean ====
section
/-! SUPPORT. What the batch apply, releases and flips leave, and the order of their records (R52 to R55, R99 to R101). -/

namespace Sys2Proof.Machine

/-- Room in the completion queue. -/
theorem completionRoom_iff (d : Device) : d.completionRoom = true
    ↔ d.control.completions.length < Config.completionCapacity := by
  unfold Device.completionRoom; exact decide_eq_true_iff

/-- A record after all records have been changed. -/
theorem mapSurfaces_get (d : Device) (f : Slot → Surface → Surface) (i : Slot) : (d.mapSurfaces f).surface i
    = f i (d.surface i) := by
  show (Vector.ofFn fun (i : Slot) => f i d.surfaces[i])[i.val] = _
  rw [Vector.getElem_ofFn]; rfl

/-- What a batch apply does to generation, slabs and state of a record (R52, R53). -/
theorem applied_facts (p : Bool) (s : Surface) :
    (s.applied p).generation = s.generation ∧ (s.applied p).heldSlabs = s.heldSlabs
    ∧ (s.applied p).state =
      match s.state with
      | .dormant => if p then .live else .dormant
      | .live => if p then .live else .dormant
      | .closing => .releasing
      | .releasing => .releasing
      | .free => .free := by
  unfold Surface.applied
  cases h : s.state <;> simp [h, Surface.heldSlabs]

/-- A record after a batch apply. -/
theorem applyBatch_surface (d : Device) (idle : Bool) (i : Slot) : (d.applyBatch idle).surface i =
    (d.surface i).applied (d.staging.order.contains ⟨i, (d.surface i).generation⟩) := by
  rw [← mapSurfaces_get d (fun i s => s.applied (d.staging.order.contains ⟨i, s.generation⟩)) i]
  unfold Device.applyBatch Device.surface
  rfl

/-- A state after a batch apply (Table 3-2). -/
theorem applyBatch_state (d : Device) (idle : Bool) (i : Slot) : ((d.applyBatch idle).surface i).state =
    match (d.surface i).state with
    | .dormant => if d.staging.order.contains ⟨i, (d.surface i).generation⟩ then .live else .dormant
    | .live => if d.staging.order.contains ⟨i, (d.surface i).generation⟩ then .live else .dormant
    | .closing => .releasing
    | .releasing => .releasing
    | .free => .free := by
  rw [applyBatch_surface]; exact (applied_facts _ _).2.2

theorem applyBatch_generation (d : Device) (idle : Bool) (i : Slot) :
    ((d.applyBatch idle).surface i).generation = (d.surface i).generation := by
  rw [applyBatch_surface]; exact (applied_facts _ _).1

theorem applyBatch_held (d : Device) (idle : Bool) (i : Slot) :
    ((d.applyBatch idle).surface i).heldSlabs = (d.surface i).heldSlabs := by
  rw [applyBatch_surface]; exact (applied_facts _ _).2.1

theorem applyBatch_freeSlabs (d : Device) (idle : Bool) : (d.applyBatch idle).freeSlabs = d.freeSlabs := by
  unfold Device.applyBatch; rfl

theorem applyBatch_pending (d : Device) (idle : Bool) : (d.applyBatch idle).staging.order = d.staging.order := by
  unfold Device.applyBatch; rfl

theorem applyBatch_committed (d : Device) (idle : Bool) : (d.applyBatch idle).layers.order = d.staging.order := by
  unfold Device.applyBatch; rfl

theorem applyBatch_store (d : Device) (idle : Bool) : (d.applyBatch idle).store = d.store := by
  unfold Device.applyBatch; rfl

theorem applyBatch_port (d : Device) (idle : Bool) (n : PortNum) : (d.applyBatch idle).port n = d.port n := by
  unfold Device.applyBatch Device.port; rfl

theorem applyBatch_timeBase (d : Device) (idle : Bool) : (d.applyBatch idle).timeBase = d.timeBase := by
  unfold Device.applyBatch; rfl

theorem applyBatch_engine (d : Device) (idle : Bool) : (d.applyBatch idle).engine = d.engine := by
  unfold Device.applyBatch; rfl

theorem applyBatch_control (d : Device) (idle : Bool) : (d.applyBatch idle).control = { d.control with
      completions := d.control.completions ++ [.applied (d.staging.batch + 1) d.scan.frameNumber idle] } := by
  unfold Device.applyBatch; rfl

theorem applyBatch_reading (d : Device) (idle : Bool) : (d.applyBatch idle).pixelRead = d.pixelRead := by
  unfold Device.applyBatch; rfl

/-- An examination of a port leaves the control port. -/
theorem examinePort_control (d : Device) (n : PortNum) : (d.examinePort n).control = d.control := by
  unfold Device.examinePort
  split
  · split <;> rfl
  · rfl

/-- An examination of a stalled port leaves the control port. -/
theorem examineStall_control (d : Device) (h : Handle) : (d.examineStall h).control = d.control := by
  unfold Device.examineStall
  split
  · exact examinePort_control d _
  · rfl

/-- An examination of a slot places at most its RELEASED record (R19). -/
theorem examineRelease_completions (d : Device) (i : Slot) :
    (d.examineRelease i).control.completions = d.control.completions ∨
    (d.examineRelease i).control.completions
        = d.control.completions ++ [.released (d.handleAt i) (d.surface i).heldSlabs.length] := by
  unfold Device.examineRelease
  split
  · split
    · right; rfl
    · left; rfl
  · left; rfl

/-- An examination of a slot places at most its FLIP record (R100). -/
theorem examineFlip_completions (d : Device) (idle : Bool) (i : Slot) :
    (d.examineFlip idle i).control.completions = d.control.completions ∨
    ∃ g tag c low, (d.examineFlip idle i).control.completions
        = d.control.completions ++ [.flip ⟨i, g⟩ tag c low idle] := by
  unfold Device.examineFlip
  split
  · split
    · right; refine ⟨(d.surface i).generation, (d.surface i).committed.tag, (d.surface i).flipCount + 1,
        d.scan.frameNumber.extractLsb' 0 16, ?_⟩
      simp only [Device.flipSlot, examineStall_control]; rfl
    · left; rfl
  · left; rfl

/-- Examinations in slot order place records in slot order (R55). -/
theorem fold_records (f : Device → Slot → Device) (P : Slot → CompletionRecord → Prop)
    (hf : ∀ d i, (f d i).control.completions = d.control.completions ∨ ∃ r, P i r ∧ (f d i).control.completions
        = d.control.completions ++ [r])
    (l : List Slot) (hl : l.Pairwise (· < ·)) (d : Device) :
    ∃ rs : List (Slot × CompletionRecord), (l.foldl f d).control.completions
        = d.control.completions ++ rs.map Prod.snd
      ∧ (rs.map Prod.fst).Pairwise (· < ·) ∧ (∀ e ∈ rs, e.1 ∈ l ∧ P e.1 e.2) := by
  induction l generalizing d with
  | nil => exact ⟨[], by simp, by simp, by simp⟩
  | cons i l ih =>
    rw [List.pairwise_cons] at hl
    obtain ⟨rs, h1, h2, h3⟩ := ih hl.2 (f d i)
    rcases hf d i with h | ⟨r, hr, h⟩
    · exact ⟨rs, by rw [List.foldl_cons, h1, h], h2, fun e he => ⟨by simp [(h3 e he).1], (h3 e he).2⟩⟩
    · refine ⟨(i, r) :: rs, by rw [List.foldl_cons, h1, h]; simp, ?_, ?_⟩
      · rw [List.map_cons, List.pairwise_cons]
        refine ⟨?_, h2⟩
        intro j hj
        rw [List.mem_map] at hj
        obtain ⟨e, he, rfl⟩ := hj
        exact hl.1 _ (h3 e he).1
      · intro e he
        rw [List.mem_cons] at he
        rcases he with rfl | he
        · exact ⟨by simp, hr⟩
        · exact ⟨by simp [(h3 e he).1], (h3 e he).2⟩

/-- The slots stand in order. -/
theorem allSlots_sorted : allSlots.Pairwise (· < ·) := by decide

/-! ## The scan engine -/

/-- An examination of a port leaves the scan engine. -/
theorem examinePort_scan (d : Device) (n : PortNum) : (d.examinePort n).scan = d.scan := by
  unfold Device.examinePort
  split
  · split <;> rfl
  · rfl

/-- So does the examination of a surface's stalled port. -/
theorem examineStall_scan (d : Device) (h : Handle) : (d.examineStall h).scan = d.scan := by
  unfold Device.examineStall
  split
  · exact examinePort_scan d _
  · rfl

/-- So does the examination of a release. -/
theorem examineRelease_scan (d : Device) (i : Slot) : (d.examineRelease i).scan = d.scan := by
  unfold Device.examineRelease
  split
  · split <;> rfl
  · rfl

/-- So does the examination of a flip. -/
theorem examineFlip_scan (d : Device) (idle : Bool) (i : Slot) : (d.examineFlip idle i).scan = d.scan := by
  unfold Device.examineFlip
  split
  · split
    · unfold Device.flipSlot; rw [examineStall_scan]; rfl
    · rfl
  · rfl

/-- A run of operations that each leave the scan engine leaves it. -/
theorem foldl_scan {α : Type} (f : Device → α → Device) (hf : ∀ d a, (f d a).scan = d.scan) (l : List α) (d : Device) :
    (l.foldl f d).scan = d.scan := by
  induction l generalizing d with
  | nil => rfl
  | cons a l ih => rw [List.foldl_cons, ih, hf]

/-- An apply point leaves the scan engine (R55). -/
theorem applyPoint_scan (d : Device) (idle : Bool) : (d.applyPoint idle).scan = d.scan := by
  have hb : (d.offerBatch idle).scan = d.scan := by
    unfold Device.offerBatch
    split
    · rfl
    · split <;> rfl
  unfold Device.applyPoint
  rw [foldl_scan _ (fun e i => examineFlip_scan e idle i), foldl_scan _ examineRelease_scan, hb]

end Sys2Proof.Machine
end

