-- ==== Sys2Proof/Laws/Blind.lean ====
section
/-! SUPPORT. What the commands do does not depend on the command queue, the sequence counter or D[15:0], and changes none of
them: each effect commutes with replacing all three. -/

namespace Sys2Proof.Machine

/-- The device with D[15:0], the command queue and the sequence counter replaced. -/
def Device.withQueue (d : Device) (o : Option Word) (cs : List QueuedCommand) (k : Byte) : Device :=
  { d with
    pins := { d.pins with dataOut := o }
    control := { d.control with commands := cs, nextSeq := k } }

variable (d : Device) (o : Option Word) (cs : List QueuedCommand) (k : Byte)

/-- Replacing the three by what they are changes nothing. -/
theorem Device.withQueue_self : d.withQueue d.pins.dataOut d.control.commands d.control.nextSeq = d := rfl

/-! ## What is read -/

@[simp] theorem withQueue_resetN : (d.withQueue o cs k).pins.resetN = d.pins.resetN := rfl
@[simp] theorem withQueue_dataOut : (d.withQueue o cs k).pins.dataOut = o := rfl
@[simp] theorem withQueue_assembly : (d.withQueue o cs k).control.assembly = d.control.assembly := rfl
@[simp] theorem withQueue_commands : (d.withQueue o cs k).control.commands = cs := rfl
@[simp] theorem withQueue_nextSeq : (d.withQueue o cs k).control.nextSeq = k := rfl
@[simp] theorem withQueue_responses : (d.withQueue o cs k).control.responses = d.control.responses := rfl
@[simp] theorem withQueue_completions : (d.withQueue o cs k).control.completions = d.control.completions := rfl
@[simp] theorem withQueue_pixelRead : (d.withQueue o cs k).pixelRead = d.pixelRead := rfl
@[simp] theorem withQueue_surfaces : (d.withQueue o cs k).surfaces = d.surfaces := rfl
@[simp] theorem withQueue_freeSlabs : (d.withQueue o cs k).freeSlabs = d.freeSlabs := rfl
@[simp] theorem withQueue_store : (d.withQueue o cs k).store = d.store := rfl
@[simp] theorem withQueue_rotation : (d.withQueue o cs k).rotation = d.rotation := rfl
@[simp] theorem withQueue_staging : (d.withQueue o cs k).staging = d.staging := rfl
@[simp] theorem withQueue_layers : (d.withQueue o cs k).layers = d.layers := rfl
@[simp] theorem withQueue_scan : (d.withQueue o cs k).scan = d.scan := rfl
@[simp] theorem withQueue_ports : (d.withQueue o cs k).ports = d.ports := rfl
@[simp] theorem withQueue_engine : (d.withQueue o cs k).engine = d.engine := rfl
@[simp] theorem withQueue_events : (d.withQueue o cs k).events = d.events := rfl
@[simp] theorem withQueue_timeBase : (d.withQueue o cs k).timeBase = d.timeBase := rfl
@[simp] theorem withQueue_freeIndex : (d.withQueue o cs k).freeIndex = d.freeIndex := rfl
@[simp] theorem withQueue_surface (i : Slot) : (d.withQueue o cs k).surface i = d.surface i := rfl
@[simp] theorem withQueue_port (n : PortNum) : (d.withQueue o cs k).port n = d.port n := rfl
@[simp] theorem withQueue_handleAt (i : Slot) : (d.withQueue o cs k).handleAt i = d.handleAt i := rfl
@[simp] theorem withQueue_boundPort (h : Handle) : (d.withQueue o cs k).boundPort h = d.boundPort h := rfl
@[simp] theorem withQueue_jobsOutstanding (h : Handle) :
    (d.withQueue o cs k).jobsOutstanding h = d.jobsOutstanding h := rfl
@[simp] theorem withQueue_completionRoom : (d.withQueue o cs k).completionRoom = d.completionRoom := rfl
@[simp] theorem withQueue_responseRoom : (d.withQueue o cs k).responseRoom = d.responseRoom := rfl
@[simp] theorem withQueue_validHandle (h : Handle) : (d.withQueue o cs k).validHandle h = d.validHandle h := rfl
@[simp] theorem withQueue_handleRefusal (h : Handle) :
    (d.withQueue o cs k).handleRefusal h = d.handleRefusal h := rfl
@[simp] theorem withQueue_writable (h : Handle) (t : BufferId) :
    (d.withQueue o cs k).writable h t = d.writable h t := rfl
@[simp] theorem withQueue_underBurst (h : Handle) : (d.withQueue o cs k).underBurst h = d.underBurst h := rfl
@[simp] theorem withQueue_intervalNow (p : Port) : (d.withQueue o cs k).intervalNow p = d.intervalNow p := rfl
@[simp] theorem withQueue_freeSlot : (d.withQueue o cs k).freeSlot = d.freeSlot := rfl
@[simp] theorem withQueue_closingSlots : (d.withQueue o cs k).closingSlots = d.closingSlots := rfl
@[simp] theorem withQueue_takesBatch : (d.withQueue o cs k).takesBatch = d.takesBatch := rfl
@[simp] theorem withQueue_runningJob : (d.withQueue o cs k).runningJob = d.runningJob := rfl
@[simp] theorem withQueue_jobRequest (j : Job) : (d.withQueue o cs k).jobRequest j = d.jobRequest j := rfl
@[simp] theorem withQueue_endedJobs : (d.withQueue o cs k).endedJobs = d.endedJobs := rfl
@[simp] theorem withQueue_abortedIds (h : Handle) : (d.withQueue o cs k).abortedIds h = d.abortedIds h := rfl

@[simp] theorem withQueue_surfaceWords (h : Handle) :
    surfaceWords (d.withQueue o cs k) h = surfaceWords d h := rfl

/-! ## Updates -/

@[simp] theorem withQueue_setSurface (i : Slot) (r : Surface) :
    (d.withQueue o cs k).setSurface i r = (d.setSurface i r).withQueue o cs k := rfl
@[simp] theorem withQueue_setPort (n : PortNum) (p : Port) :
    (d.withQueue o cs k).setPort n p = (d.setPort n p).withQueue o cs k := rfl
@[simp] theorem withQueue_mapSurfaces (f : Slot → Surface → Surface) :
    (d.withQueue o cs k).mapSurfaces f = (d.mapSurfaces f).withQueue o cs k := rfl
@[simp] theorem withQueue_placeRecord (r : CompletionRecord) :
    (d.withQueue o cs k).placeRecord r = (d.placeRecord r).withQueue o cs k := rfl
@[simp] theorem withQueue_latch (e : Event) :
    (d.withQueue o cs k).latch e = (d.latch e).withQueue o cs k := rfl
@[simp] theorem withQueue_setPending (l : List Handle) :
    (d.withQueue o cs k).setPending l = (d.setPending l).withQueue o cs k := rfl
@[simp] theorem withQueue_dropFromPending (h : Handle) :
    (d.withQueue o cs k).dropFromPending h = (d.dropFromPending h).withQueue o cs k := rfl
@[simp] theorem withQueue_setSlotState (i : Slot) (st : SlotState) :
    (d.withQueue o cs k).setSlotState i st = (d.setSlotState i st).withQueue o cs k := rfl
@[simp] theorem withQueue_editPending (i : Slot) (look : Appearance) :
    (d.withQueue o cs k).editPending i look = (d.editPending i look).withQueue o cs k := rfl
@[simp] theorem withQueue_discardBatch :
    (d.withQueue o cs k).discardBatch = d.discardBatch.withQueue o cs k := rfl
@[simp] theorem withQueue_takeSlot (i : Slot) (m : OpenMode) (l : Look) (sw sh x y : Nat) :
    (d.withQueue o cs k).takeSlot i m l sw sh x y = (d.takeSlot i m l sw sh x y).withQueue o cs k := rfl
@[simp] theorem withQueue_release (i : Slot) :
    (d.withQueue o cs k).release i = (d.release i).withQueue o cs k := rfl
@[simp] theorem withQueue_applyBatch (idle : Bool) :
    (d.withQueue o cs k).applyBatch idle = (d.applyBatch idle).withQueue o cs k := rfl
@[simp] theorem withQueue_recordError (n : PortNum) (c : PortError) :
    (d.withQueue o cs k).recordError n c = (d.recordError n c).withQueue o cs k := rfl
@[simp] theorem withQueue_placeJobEnd (j : Job) :
    (d.withQueue o cs k).placeJobEnd j = (d.placeJobEnd j).withQueue o cs k := rfl

/-- A choice between two commuting effects commutes. -/
theorem withQueue_ite (p : Prop) {inst : Decidable p} (a e : Device) :
    (if p then a.withQueue o cs k else e.withQueue o cs k) = (if p then a else e).withQueue o cs k := by
  split <;> rfl

/-- A fold of commuting effects commutes. -/
theorem withQueue_foldl {α : Type} (f : Device → α → Device)
    (hf : ∀ d a, f (d.withQueue o cs k) a = (f d a).withQueue o cs k) (l : List α) :
    l.foldl f (d.withQueue o cs k) = (l.foldl f d).withQueue o cs k := by
  induction l generalizing d with
  | nil => rfl
  | cons a l ih => simp only [List.foldl_cons, hf, ih]

@[simp] theorem withQueue_examinePort (n : PortNum) :
    (d.withQueue o cs k).examinePort n = (d.examinePort n).withQueue o cs k := by
  simp only [Device.examinePort, withQueue_port, withQueue_writable, withQueue_surface, withQueue_intervalNow,
    withQueue_setPort]
  split
  · exact withQueue_ite o cs k _ _ _
  · rfl

@[simp] theorem withQueue_examineStall (h : Handle) :
    (d.withQueue o cs k).examineStall h = (d.examineStall h).withQueue o cs k := by
  simp only [Device.examineStall, withQueue_boundPort, withQueue_examinePort]
  split <;> rfl

@[simp] theorem withQueue_examineRelease (i : Slot) :
    (d.withQueue o cs k).examineRelease i = (d.examineRelease i).withQueue o cs k := by
  simp only [Device.examineRelease, apply_ite fun e => Device.withQueue e o cs k]
  rfl

@[simp] theorem withQueue_flipSlot (idle : Bool) (i : Slot) :
    (d.withQueue o cs k).flipSlot idle i = (d.flipSlot idle i).withQueue o cs k := by
  simp only [Device.flipSlot, withQueue_surface, withQueue_handleAt, withQueue_scan, withQueue_setSurface,
    withQueue_placeRecord, withQueue_examineStall]

@[simp] theorem withQueue_examineFlip (idle : Bool) (i : Slot) :
    (d.withQueue o cs k).examineFlip idle i = (d.examineFlip idle i).withQueue o cs k := by
  simp only [Device.examineFlip, withQueue_surface, withQueue_jobsOutstanding, withQueue_handleAt,
    withQueue_completionRoom, withQueue_flipSlot, withQueue_latch, withQueue_ite]

@[simp] theorem withQueue_offerBatch (idle : Bool) :
    (d.withQueue o cs k).offerBatch idle = (d.offerBatch idle).withQueue o cs k := by
  simp only [Device.offerBatch, apply_ite fun e => Device.withQueue e o cs k]
  rfl

@[simp] theorem withQueue_applyPoint (idle : Bool) :
    (d.withQueue o cs k).applyPoint idle = (d.applyPoint idle).withQueue o cs k := by
  simp only [Device.applyPoint, withQueue_takesBatch, withQueue_closingSlots, withQueue_offerBatch]
  rw [withQueue_foldl _ o cs k Device.examineRelease fun d i => withQueue_examineRelease d o cs k i]
  exact withQueue_foldl _ o cs k _ (fun d i => withQueue_examineFlip d o cs k idle i) _

@[simp] theorem withQueue_offerIdle :
    (d.withQueue o cs k).offerIdle = d.offerIdle.withQueue o cs k := by
  simp only [Device.offerIdle, withQueue_scan, withQueue_applyPoint, withQueue_ite]

@[simp] theorem withQueue_offerJobEnd (id : Byte) :
    (d.withQueue o cs k).offerJobEnd id = (d.offerJobEnd id).withQueue o cs k := by
  simp only [Device.offerJobEnd, withQueue_engine]
  split
  · rfl
  · simp only [withQueue_completionRoom, withQueue_placeJobEnd, withQueue_examineStall, withQueue_examineRelease,
      withQueue_offerIdle, withQueue_latch, withQueue_ite]

@[simp] theorem withQueue_deliverPost (i : Slot) :
    (d.withQueue o cs k).deliverPost i = (d.deliverPost i).withQueue o cs k := by
  simp only [Device.deliverPost, withQueue_surface, withQueue_setSurface, withQueue_offerIdle]

@[simp] theorem withQueue_startJob : (d.withQueue o cs k).startJob = d.startJob.withQueue o cs k := by
  simp only [Device.startJob, withQueue_runningJob, withQueue_engine]
  split <;> rfl

@[simp] theorem withQueue_admitJob (kind : JobKind) (h : Handle) (t : BufferId) (r : Rect) :
    (d.withQueue o cs k).admitJob kind h t r = (d.admitJob kind h t r).withQueue o cs k := by
  simp only [Device.admitJob]
  rw [← withQueue_startJob]
  rfl

@[simp] theorem withQueue_openingFills (i : Slot) (c : Pixel) :
    (d.withQueue o cs k).openingFills i c = (d.openingFills i c).withQueue o cs k := by
  simp only [Device.openingFills, withQueue_handleAt, withQueue_surface, withQueue_admitJob]
  split <;> rfl

@[simp] theorem withQueue_abortJobs (h : Handle) :
    (d.withQueue o cs k).abortJobs h = (d.abortJobs h).withQueue o cs k := by
  simp only [Device.abortJobs]
  rw [← withQueue_startJob]
  rfl

@[simp] theorem withQueue_grantFirst (w : RotatingClient → Bool) :
    (d.withQueue o cs k).grantFirst w = (d.grantFirst w).withQueue o cs k := by
  unfold Device.grantFirst
  rw [show (d.withQueue o cs k).grantable w = d.grantable w from rfl]
  split <;> rfl

@[simp] theorem withQueue_cutShort (n : PortNum) (c : PortError) :
    (d.withQueue o cs k).cutShort n c = (d.cutShort n c).withQueue o cs k := rfl

@[simp] theorem withQueue_endEarly (n : PortNum) (c : PortError) :
    (d.withQueue o cs k).endEarly n c = (d.endEarly n c).withQueue o cs k := by
  simp only [Device.endEarly, withQueue_grantFirst, withQueue_cutShort]

@[simp] theorem withQueue_leavePort (n : PortNum) :
    (d.withQueue o cs k).leavePort n = (d.leavePort n).withQueue o cs k := by
  unfold Device.leavePort
  rw [withQueue_port]
  split <;> rfl

@[simp] theorem withQueue_abandonPort (n : PortNum) :
    (d.withQueue o cs k).abandonPort n = (d.abandonPort n).withQueue o cs k := by
  simp only [Device.abandonPort, withQueue_port, withQueue_endEarly, withQueue_ite, withQueue_setPort]

@[simp] theorem withQueue_closeWithdraw (h : Handle) :
    (d.withQueue o cs k).closeWithdraw h = (d.closeWithdraw h).withQueue o cs k := by
  simp only [Device.closeWithdraw, withQueue_boundPort]
  split <;> simp only [withQueue_abandonPort, withQueue_abortJobs, withQueue_surface, withQueue_setSurface]

@[simp] theorem withQueue_closeImmediate (h : Handle) :
    (d.withQueue o cs k).closeImmediate h = (d.closeImmediate h).withQueue o cs k := by
  simp only [Device.closeImmediate, withQueue_abortedIds, withQueue_dropFromPending, withQueue_closeWithdraw,
    withQueue_setSlotState]
  rw [withQueue_foldl _ o cs k Device.offerJobEnd fun d i => withQueue_offerJobEnd d o cs k i,
    withQueue_examineRelease]

@[simp] theorem withQueue_closeStaged (h : Handle) :
    (d.withQueue o cs k).closeStaged h = (d.closeStaged h).withQueue o cs k := by
  simp only [Device.closeStaged, withQueue_abortedIds, withQueue_dropFromPending, withQueue_closeWithdraw,
    withQueue_setSlotState]
  rw [← withQueue_foldl _ o cs k Device.offerJobEnd fun d i => withQueue_offerJobEnd d o cs k i]
  rfl

@[simp] theorem withQueue_abandonAll : (d.withQueue o cs k).abandonAll = d.abandonAll.withQueue o cs k := by
  unfold Device.abandonAll
  rw [show (d.withQueue o cs k).portInProgress = d.portInProgress from rfl, withQueue_grantFirst]
  exact withQueue_foldl _ o cs k Device.leavePort (fun d n => withQueue_leavePort d o cs k n) allPorts

theorem withQueue_clearScene : (d.withQueue o cs k).clearScene = d.clearScene.withQueue o cs k := by
  simp only [Device.clearScene]
  unfold Device.withQueue
  simp only

@[simp] theorem withQueue_sceneReset : (d.withQueue o cs k).sceneReset = d.sceneReset.withQueue o cs k := by
  unfold Device.sceneReset
  rw [withQueue_abandonAll]
  exact withQueue_clearScene _ o cs k

/-! ## The commands -/

set_option linter.unusedSimpArgs false

/-- A command that takes its parameters commutes with replacing the queue. -/
def Blind (f : List Word → Device → Device × Reply) : Prop :=
  ∀ ps d o cs k, f ps (d.withQueue o cs k) = ((f ps d).1.withQueue o cs k, (f ps d).2)

theorem openAtHead_blind : Blind openAtHead := by
  intro ps d o cs k
  unfold openAtHead
  simp only [withQueue_freeSlot, withQueue_freeSlabs, withQueue_takeSlot, withQueue_openingFills, withQueue_ite,
    withQueue_handleAt, withQueue_engine]
  repeat' first | rfl | (split <;> try simp only [*, ↓reduceIte, Bool.false_eq_true])

theorem closeAtHead_blind : Blind closeAtHead := by
  intro ps d o cs k
  unfold closeAtHead
  simp only [withQueue_handleRefusal, withQueue_surface, withQueue_closeStaged, withQueue_closeImmediate]
  repeat' first | rfl | (split <;> try simp only [*, ↓reduceIte, Bool.false_eq_true])

theorem querySurfaceAtHead_blind : Blind querySurfaceAtHead := by
  intro ps d o cs k
  unfold querySurfaceAtHead
  simp only [withQueue_validHandle]
  repeat' first | rfl | (split <;> try simp only [*, ↓reduceIte, Bool.false_eq_true])

theorem queryPoolAtHead_blind : Blind queryPoolAtHead := by
  intro ps d o cs k
  unfold queryPoolAtHead
  split <;> rfl

theorem setPositionAtHead_blind : Blind setPositionAtHead := by
  intro ps d o cs k
  unfold setPositionAtHead
  simp only [withQueue_handleRefusal, withQueue_surface, withQueue_editPending]
  repeat' first | rfl | (split <;> try simp only [*, ↓reduceIte, Bool.false_eq_true])

theorem setLookAtHead_blind : Blind setLookAtHead := by
  intro ps d o cs k
  unfold setLookAtHead
  simp only [withQueue_handleRefusal, withQueue_surface, withQueue_editPending]
  repeat' first | rfl | (split <;> try simp only [*, ↓reduceIte, Bool.false_eq_true])

theorem setBackgroundAtHead_blind : Blind setBackgroundAtHead := by
  intro ps d o cs k
  unfold setBackgroundAtHead
  split <;> rfl

theorem commitAtHead_blind : Blind commitAtHead := by
  intro ps d o cs k
  unfold commitAtHead
  split
  · rw [withQueue_staging]
    split
    · simp only
      rw [← withQueue_offerIdle]
      rfl
    · rfl
  · rfl

theorem discardAtHead_blind : Blind discardAtHead := by
  intro ps d o cs k
  unfold discardAtHead
  split <;> rfl

theorem queryStagingAtHead_blind : Blind queryStagingAtHead := by
  intro ps d o cs k
  unfold queryStagingAtHead
  split <;> rfl

theorem placeAtHead_blind : Blind placeAtHead := by
  intro ps d o cs k
  unfold placeAtHead
  simp only [withQueue_handleRefusal, withQueue_staging, withQueue_setPending]
  repeat' first | rfl | (split <;> try simp only [*, ↓reduceIte, Bool.false_eq_true])

theorem unplaceAtHead_blind : Blind unplaceAtHead := by
  intro ps d o cs k
  unfold unplaceAtHead
  simp only [withQueue_handleRefusal, withQueue_staging, withQueue_setPending]
  repeat' first | rfl | (split <;> try simp only [*, ↓reduceIte, Bool.false_eq_true])

theorem queryOrderAtHead_blind : Blind queryOrderAtHead := by
  intro ps d o cs k
  unfold queryOrderAtHead
  split <;> rfl

theorem panelSetupAtHead_blind : Blind panelSetupAtHead := by
  intro ps d o cs k
  unfold panelSetupAtHead
  simp only [withQueue_scan]
  repeat' first | rfl | (split <;> try simp only [*, ↓reduceIte, Bool.false_eq_true])

theorem panelStartAtHead_blind : Blind panelStartAtHead := by
  intro ps d o cs k
  unfold panelStartAtHead
  simp only [withQueue_scan]
  repeat' first | rfl | (split <;> try simp only [*, ↓reduceIte, Bool.false_eq_true])

theorem panelStopAtHead_blind : Blind panelStopAtHead := by
  intro ps d o cs k
  unfold panelStopAtHead
  simp only [withQueue_scan]
  repeat' first | rfl | (split <;> try simp only [*, ↓reduceIte, Bool.false_eq_true])

theorem queryPanelAtHead_blind : Blind queryPanelAtHead := by
  intro ps d o cs k
  unfold queryPanelAtHead
  split <;> rfl

theorem postAtHead_blind : Blind postAtHead := by
  intro ps d o cs k
  unfold postAtHead
  simp only [withQueue_handleRefusal, withQueue_surface, withQueue_underBurst, withQueue_deliverPost]
  repeat' first | rfl | (split <;> try simp only [*, ↓reduceIte, Bool.false_eq_true])

theorem bindAtHead_blind : Blind bindAtHead := by
  intro ps d o cs k
  unfold bindAtHead
  simp only [withQueue_handleRefusal, withQueue_port, withQueue_boundPort, withQueue_setPort]
  repeat' first | rfl | (split <;> try simp only [*, ↓reduceIte, Bool.false_eq_true])

theorem unbindAtHead_blind : Blind unbindAtHead := by
  intro ps d o cs k
  unfold unbindAtHead
  simp only [withQueue_port, withQueue_abandonPort, withQueue_ite]
  repeat' first | rfl | (split <;> try simp only [*, ↓reduceIte, Bool.false_eq_true])

theorem portConfigAtHead_blind : Blind portConfigAtHead := by
  intro ps d o cs k
  unfold portConfigAtHead
  simp only [withQueue_port, withQueue_setPort]
  repeat' first | rfl | (split <;> try simp only [*, ↓reduceIte, Bool.false_eq_true])

theorem queryPortAtHead_blind : Blind queryPortAtHead := by
  intro ps d o cs k
  unfold queryPortAtHead
  simp only [withQueue_port]
  repeat' first | rfl | (split <;> try simp only [*, ↓reduceIte, Bool.false_eq_true])

theorem fillAtHead_blind : Blind fillAtHead := by
  intro ps d o cs k
  unfold fillAtHead
  simp only [withQueue_handleRefusal, withQueue_surface, withQueue_underBurst, withQueue_admitJob, withQueue_engine]
  repeat' first | rfl | (split <;> try simp only [*, ↓reduceIte, Bool.false_eq_true])

theorem copyForwardAtHead_blind : Blind copyForwardAtHead := by
  intro ps d o cs k
  unfold copyForwardAtHead
  simp only [withQueue_handleRefusal, withQueue_surface, withQueue_underBurst, withQueue_admitJob, withQueue_engine]
  repeat' first | rfl | (split <;> try simp only [*, ↓reduceIte, Bool.false_eq_true])

theorem sceneResetAtHead_blind : Blind sceneResetAtHead := by
  intro ps d o cs k
  unfold sceneResetAtHead
  simp only [withQueue_sceneReset]
  split <;> rfl

/-- No command depends on the queue, the sequence counter or D[15:0], or changes them. -/
theorem runCommand_blind (c : Command) (ps : List Word) :
    runCommand c ps (d.withQueue o cs k) = ((runCommand c ps d).1.withQueue o cs k, (runCommand c ps d).2) := by
  cases c
  case pixelRead =>
    simp only [runCommand, pixelReadAtHead, withQueue_validHandle, withQueue_surface]
    repeat' first | rfl | (split <;> try simp only [*, ↓reduceIte, Bool.false_eq_true])
  all_goals
    simp only [runCommand, openAtHead_blind _ d o cs k, closeAtHead_blind _ d o cs k,
      querySurfaceAtHead_blind _ d o cs k, queryPoolAtHead_blind _ d o cs k, setPositionAtHead_blind _ d o cs k,
      setLookAtHead_blind _ d o cs k, setBackgroundAtHead_blind _ d o cs k, commitAtHead_blind _ d o cs k,
      discardAtHead_blind _ d o cs k, queryStagingAtHead_blind _ d o cs k, placeAtHead_blind _ d o cs k,
      unplaceAtHead_blind _ d o cs k, queryOrderAtHead_blind _ d o cs k, panelSetupAtHead_blind _ d o cs k,
      panelStartAtHead_blind _ d o cs k, panelStopAtHead_blind _ d o cs k, queryPanelAtHead_blind _ d o cs k,
      postAtHead_blind _ d o cs k, bindAtHead_blind _ d o cs k, unbindAtHead_blind _ d o cs k,
      portConfigAtHead_blind _ d o cs k, queryPortAtHead_blind _ d o cs k, fillAtHead_blind _ d o cs k,
      copyForwardAtHead_blind _ d o cs k, sceneResetAtHead_blind _ d o cs k]

end Sys2Proof.Machine
end

