-- ==== Sys2Proof/Laws/Command.lean ====
section
/-! SUPPORT. A whole command written to CMD: it joins the queue, and when it executes at once it leaves the effect of its block
and its response. -/

namespace Sys2Proof.Machine

/-! ## Command words -/

@[simp] theorem opcodeField_commandWord (code low : Byte) : opcodeField (commandWord code low) = code := by
  apply BitVec.eq_of_getLsbD_eq
  intro i hi
  simp only [opcodeField, commandWord, BitVec.getLsbD_extractLsb', BitVec.getLsbD_append]
  simp [hi]

theorem lengthField_commandWord (code low : Byte) :
    lengthField (commandWord code low) = (low.extractLsb' 0 4).toNat := by
  have h : (commandWord code low).extractLsb' 0 4 = low.extractLsb' 0 4 := by
    apply BitVec.eq_of_getLsbD_eq
    intro i hi
    simp only [commandWord, BitVec.getLsbD_extractLsb', BitVec.getLsbD_append]
    have : i < 8 := by omega
    simp [this]
  simp only [lengthField, h]

theorem admissionLength_commandWord (code low : Byte) :
    admissionLength (commandWord code low) = admissionLength (commandWord 0 low) := by
  simp only [admissionLength, lengthField_commandWord]

theorem admissionLength_pos (w : Word) : 1 ≤ admissionLength w := by
  unfold admissionLength
  repeat' split
  all_goals omega

theorem admissionLength_le (w : Word) : admissionLength w ≤ 8 := by
  unfold admissionLength
  repeat' split
  all_goals omega

@[simp] theorem commandOf_commandCode (c : Command) : commandOf (commandCode c) = some c := by
  cases c <;> decide

/-- A declared length is the length used for admission. -/
theorem admissionLength_of_declares (low : Byte) (n : Nat) (h1 : 1 ≤ n) (hn : n ≤ 8) (h : declares low n = true) :
    admissionLength (commandWord 0 low) = n := by
  simp only [declares, Bool.or_eq_true, beq_iff_eq, Bool.and_eq_true] at h
  simp only [admissionLength]
  repeat' split
  all_goals omega

/-! ## The words of a command, one after another -/

@[simp] theorem withQueue_headReady (d : Device) (o : Option Word) (cs : List QueuedCommand) (k : Byte)
    (q : QueuedCommand) : (d.withQueue o cs k).headReady q = d.headReady q := rfl

theorem settle_of_not_ready (d : Device) (h : ∀ q ∈ d.control.commands.head?, d.headReady q = false) :
    d.settle = d := by
  simp only [Device.settle]
  cases hc : d.control.commands with
  | nil => rfl
  | cons q rest =>
    have := h q (by simp [hc])
    simp [settleFor, hc, this]

theorem appendParam_concat (w : Word) (cs : List QueuedCommand) (q : QueuedCommand) :
    appendParam w (cs ++ [q]) = cs ++ [{ q with params := q.params ++ [w] }] := by
  induction cs with
  | nil => rfl
  | cons c cs ih =>
    cases h : cs ++ [q] with
    | nil => simp at h
    | cons r rest => simp only [List.cons_append, h, appendParam]; rw [← h, ih]

/-- The device after the first words of a command have been written. -/
def Device.partly (d : Device) (w : Word) (ps : List Word) : Device :=
  { d with
    pins := { d.pins with dataOut := none }
    control := { d.control with
      assembly := collectingAfter (admissionLength w) (ps.length + 1)
      commands := d.control.commands ++ [⟨d.control.nextSeq, w, ps⟩]
      nextSeq := d.control.nextSeq + 1 } }

theorem partly_headReady (d : Device) (w : Word) (ps : List Word) (q : QueuedCommand) :
    (d.partly w ps).headReady q = d.headReady q := by
  cases q; rfl

theorem partly_settle (d : Device) (w : Word) (ps : List Word)
    (hw : ∀ q ∈ d.control.commands.head?, d.headReady q = false) (hl : ps.length + 1 < admissionLength w) :
    (d.partly w ps).settle = d.partly w ps := by
  apply settle_of_not_ready
  intro q hq
  rw [partly_headReady]
  cases hc : d.control.commands with
  | nil =>
    simp only [Device.partly, hc, List.nil_append, List.head?_cons, Option.mem_def, Option.some.injEq] at hq
    subst hq
    have hpart : QueuedCommand.complete ⟨d.control.nextSeq, w, ps⟩ = false := by
      rw [QueuedCommand.complete, decide_eq_false_iff_not]
      exact Nat.not_le.2 hl
    simp only [Device.headReady, hpart, Bool.and_false, Bool.false_and]
  | cons c rest =>
    simp only [Device.partly, hc, List.cons_append, List.head?_cons, Option.mem_def, Option.some.injEq] at hq
    subst hq
    exact hw c (by simp [hc])

theorem partly_writeCmd (d : Device) (w x : Word) (ps : List Word) (hr : d.pins.resetN = true)
    (hl : ps.length + 1 < admissionLength w) :
    (d.partly w ps).writeCmd x = (d.partly w (ps ++ [x])).settle := by
  have hr' : (d.partly w ps).pins.resetN = true := hr
  simp only [Device.writeCmd, hr', if_true]
  congr 1
  have ha : (d.partly w ps).written.control.assembly = .collecting (admissionLength w) (ps.length + 1) := by
    simp [Device.partly, collectingAfter, hl]
  simp only [Device.takeWord, ha]
  simp only [Device.partly, Device.written, Device.setData, appendParam_concat, List.length_append,
    List.length_singleton]

theorem partly_fold (d : Device) (w : Word) (hr : d.pins.resetN = true)
    (hw : ∀ q ∈ d.control.commands.head?, d.headReady q = false) (rest ps : List Word)
    (hl : ps.length + 1 + rest.length = admissionLength w) :
    rest.foldl Device.writeCmd (d.partly w ps).settle = (d.partly w (ps ++ rest)).settle := by
  induction rest generalizing ps with
  | nil => simp
  | cons x rest ih =>
    simp only [List.length_cons] at hl
    rw [List.foldl_cons, partly_settle d w ps hw (by omega), partly_writeCmd d w x ps hr (by omega),
      ih (ps ++ [x]) (by simp; omega)]
    simp

/-- A whole command written to a control port that is between commands: it joins the queue, and the heads that are ready
execute (R157 to R160). -/
theorem sendCommand_eq (d : Device) (code low : Byte) (params : List Word) (hr : d.pins.resetN = true)
    (ha : d.control.assembly = .idle) (hf : framed low params = true)
    (hfit : admissionLength (commandWord 0 low) ≤ d.freeWords)
    (hw : ∀ q ∈ d.control.commands.head?, d.headReady q = false) :
    d.sendCommand code low params = (d.queueing (commandWord code low) params).settle := by
  have hlen : params.length + 1 = admissionLength (commandWord code low) := by
    rw [admissionLength_commandWord]
    exact beq_iff_eq.1 hf
  have h1 : d.writeCmd (commandWord code low) = (d.partly (commandWord code low) []).settle := by
    simp only [Device.writeCmd, hr, if_true]
    congr 1
    have ha' : d.written.control.assembly = .idle := ha
    have hfit' : admissionLength (commandWord code low) ≤ d.written.freeWords := by
      rw [admissionLength_commandWord]; exact hfit
    simp only [Device.takeWord, ha', Device.firstWord, hfit', if_true]
    rfl
  have h2 : d.partly (commandWord code low) params = d.queueing (commandWord code low) params := by
    have : collectingAfter (admissionLength (commandWord code low)) (params.length + 1) = d.control.assembly := by
      rw [hlen, ha]; simp [collectingAfter]
    simp only [Device.partly, this, Device.queueing]
  simp only [Device.sendCommand, Device.sendWords, List.foldl_cons]
  rw [h1, partly_fold d (commandWord code low) hr hw params [] (by simpa [Nat.add_comm] using hlen), List.nil_append,
      h2]

/-! ## A command that executes at once -/

theorem takesCommands_iff (d : Device) : d.takesCommands = true ↔
    d.pins.resetN = true ∧ d.control.assembly = .idle ∧ d.control.commands = [] ∧ d.pixelRead = none
      ∧ d.responseRoom = true := by
  simp [Device.takesCommands, Option.isNone_iff_eq_none, List.isEmpty_iff, and_assoc]

theorem headEffect_blind (q : QueuedCommand) (d : Device) (o : Option Word) (cs : List QueuedCommand) (k : Byte) :
    headEffect q (d.withQueue o cs k) = ((headEffect q d).1.withQueue o cs k, (headEffect q d).2) := by
  simp only [headEffect]
  split
  · rfl
  · split
    · exact runCommand_blind d o cs k _ _
    · rfl

/-- What a command changes leaves the command queue and the sequence counter as they were. -/
theorem headEffect_keeps (q : QueuedCommand) (d : Device) :
    (headEffect q d).1.control.commands = d.control.commands
      ∧ (headEffect q d).1.control.nextSeq = d.control.nextSeq := by
  have h := congrArg Prod.fst (headEffect_blind q d d.pins.dataOut d.control.commands d.control.nextSeq)
  rw [Device.withQueue_self] at h
  constructor
  · rw [h]; rfl
  · rw [h]; rfl

/-- A command of any opcode that executes as it is written (R160 to R163): the effect, then the response. -/
theorem sendCommand_executes (d : Device) (code low : Byte) (params : List Word) (h : d.takesCommands = true)
    (hf : framed low params = true)
    (hc : d.classReady (waitClass ⟨d.control.nextSeq, commandWord code low, params⟩) = true) (e : Device) (r : Reply)
    (he : headEffect ⟨d.control.nextSeq, commandWord code low, params⟩ d = (e, some r)) :
    d.sendCommand code low params = e.answering code r := by
  obtain ⟨hr, ha, hq, hp, hroom⟩ := (takesCommands_iff d).1 h
  have hfit : admissionLength (commandWord 0 low) ≤ d.freeWords := by
    have := admissionLength_le (commandWord 0 low)
    simp only [Device.freeWords, Device.heldWords, hq, Config.commandWords]
    simpa using Nat.le_trans this (by decide)
  rw [sendCommand_eq d code low params hr ha hf hfit (by simp [hq])]
  have hd : d.queueing (commandWord code low) params
      = d.withQueue none [⟨d.control.nextSeq, commandWord code low, params⟩] (d.control.nextSeq + 1) := by
    simp only [Device.queueing, hq, List.nil_append, Device.withQueue]
  have hlen : admissionLength (commandWord 0 low) ≤ params.length + 1 := by
    have : params.length + 1 = admissionLength (commandWord 0 low) := beq_iff_eq.1 hf
    omega
  have hready : d.headReady ⟨d.control.nextSeq, commandWord code low, params⟩ = true := by
    have hfull : QueuedCommand.complete ⟨d.control.nextSeq, commandWord code low, params⟩ = true := by
      rw [QueuedCommand.complete, QueuedCommand.held, admissionLength_commandWord]
      exact decide_eq_true hlen
    simp only [Device.headReady, hp, Option.isNone_none, hfull, hroom, hc, Bool.and_self]
  have hkeep := headEffect_keeps ⟨d.control.nextSeq, commandWord code low, params⟩ d
  simp only [he] at hkeep
  rw [hd, Device.settle]
  simp only [withQueue_commands, List.length_singleton, settleFor, withQueue_headReady, hready, if_true, executeHead,
    headEffect_blind, he]
  simp only [Device.respond, Device.withQueue, Device.answering, opcodeField_commandWord,
    hkeep.1, hkeep.2, hq]

/-! ## The commands of Table 9-4 -/

theorem exec_row (c : Command) (low : Byte) (params : List Word) (s : State) :
    exec (rowOf c low params) s = .next (s.withDevice (s.dev.sendCommand (commandCode c) low params)) := by
  cases c <;> rfl

/-- The class of a command, from its length and its parameters (R161). -/
def classOf (c : Command) (params : List Word) : WaitClass :=
  match c with
  | .setPosition => .staging
  | .setLook => .staging
  | .setBackground => .staging
  | .place => .staging
  | .unplace => .staging
  | .closeSurface => .staging
  | .commit => .staging
  | .discard => .staging
  | .fill => .job 1
  | .copyForward => .job 1
  | .openSurface =>
    match params with
    | mode :: _ =>
      if params.length = 7 ∧ mode.getLsbD 8 then
        if fieldOf mode 0 2 = 1 then .job 2 else .job 1
      else .unclassed
    | [] => .unclassed
  | _ => .unclassed

theorem waitClass_row (c : Command) (k : Byte) (low : Byte) (params : List Word) (hf : framed low params = true) :
    waitClass ⟨k, commandWord (commandCode c) low, params⟩ = classOf c params := by
  have hlen : params.length + 1 = admissionLength (commandWord 0 low) := beq_iff_eq.1 hf
  simp only [waitClass, opcodeField_commandWord, commandOf_commandCode]
  cases c
  case openSurface =>
    simp only [classOf]
    cases params with
    | nil => rfl
    | cons mode rest =>
      simp only [QueuedCommand.held, admissionLength_commandWord, ← hlen]
      simp
  all_goals rfl

/-- A command of Table 9-4 of the right length that executes as it is written: what its block does, then its response. -/
theorem exec_command (c : Command) (low : Byte) (params : List Word) (s : State) (h : s.dev.takesCommands = true)
    (hl : declares low (commandLength c) = true) (hp : params.length + 1 = commandLength c)
    (hc : s.dev.classReady (classOf c params) = true) (e : Device) (r : Reply)
    (he : runCommand c params s.dev = (e, some r)) :
    exec (rowOf c low params) s = .next (s.withDevice (e.answering (commandCode c) r)) := by
  have hle : commandLength c ≤ 8 := by cases c <;> decide
  have hpos : 1 ≤ commandLength c := by cases c <;> decide
  have hadm : admissionLength (commandWord 0 low) = commandLength c := admissionLength_of_declares low _ hpos hle hl
  have hf : framed low params = true := by rw [framed, hadm, hp, beq_self_eq_true]
  rw [exec_row, sendCommand_executes s.dev (commandCode c) low params h hf
    (by rw [waitClass_row c _ low params hf]; exact hc) e r]
  have hfield : lengthField (commandWord (commandCode c) low) ≤ 8 := by
    simp only [declares, Bool.or_eq_true, beq_iff_eq, Bool.and_eq_true, lengthField_commandWord] at hl
    rw [lengthField_commandWord]
    omega
  simp only [headEffect, opcodeField_commandWord, commandOf_commandCode, lengthFits, QueuedCommand.held,
    admissionLength_commandWord, hadm, beq_self_eq_true, hfield, decide_true, Bool.and_self, if_true, he]

end Sys2Proof.Machine
end

