-- ==== Sys2Proof/Laws/Heads.lean ====
section
/-! SUPPORT. The run of heads in one step, and the commands that are dropped (R157, R160). -/

namespace Sys2Proof.Machine

/-- Nothing executes while the head waits. -/
theorem settle_headsWait (d : Device) (h : d.headsWait) : d.settle = d := settle_of_not_ready d h

/-- Nothing executes on an empty queue. -/
theorem settleFor_idle (n : Nat) (d : Device) (h : d.control.commands = []) : settleFor n d = d := by
  cases n <;> simp [settleFor, h]

/-- An executed head leaves the queue, or stays there without an answer. -/
theorem executeHead_commands (q : QueuedCommand) (d : Device) (rest) (hc : d.control.commands = q :: rest) :
   (executeHead q d).control.commands = rest ∨ ((executeHead q d).control.commands = q :: rest ∧ (headEffect q d).2
       = none) := by
  have := (headEffect_keeps q d).1
  unfold executeHead
  split
  · rename_i e r h
    left
    rw [h] at this
    simp only [] at this
    simp [Device.respond, this, hc]
  · rename_i e h
    right
    rw [h] at this
    simp only [] at this
    simp [this, hc, h]

/-- Only a PIXEL_READ that has begun gives no answer. -/
theorem headEffect_none (q : QueuedCommand) (d : Device) (h : (headEffect q d).2 = none) :
    (headEffect q d).1.pixelRead.isSome = true := by
  simp only [headEffect] at h ⊢
  split at h
  · simp at h
  · rename_i c hc
    split at h
    · rename_i hl
      simp only [hl]
      cases c <;> simp only [runCommand, reduceCtorEq] at h ⊢
      simp only [pixelReadAtHead] at h ⊢
      repeat' split at h
      all_goals first | (simp at h; done) | skip
      simp_all
    · simp at h

/-- As many executions as commands are enough. -/
theorem settleFor_enough (n m : Nat) (d : Device) (hn : d.control.commands.length ≤ n)
    (hm : d.control.commands.length ≤ m) :
    settleFor n d = settleFor m d := by
  induction n generalizing m d with
  | zero =>
    have : d.control.commands = [] := List.length_eq_zero_iff.1 (by omega)
    rw [settleFor_idle _ _ this, settleFor_idle _ _ this]
  | succ n ih =>
    cases hc : d.control.commands with
    | nil => rw [settleFor_idle _ _ hc, settleFor_idle _ _ hc]
    | cons q rest =>
      cases m with
      | zero => simp [hc] at hm
      | succ m =>
        simp only [settleFor, hc]
        split
        · rename_i hr
          rcases executeHead_commands q d rest hc with h | ⟨h, hnone⟩
          · apply ih
            · rw [h]; simp [hc] at hn; omega
            · rw [h]; simp [hc] at hm; omega
          · have hp := headEffect_none q d hnone
            have he : executeHead q d = (headEffect q d).1 := by
              unfold executeHead
              split
              · rename_i h'; rw [h'] at hnone; simp at hnone
              · rename_i h'; rw [h']
            have stuck : ∀ k, settleFor k (executeHead q d) = executeHead q d := by
              intro k
              cases k with
              | zero => rfl
              | succ k =>
                simp only [settleFor, h]
                rw [he]
                have : (headEffect q d).1.headReady q = false := by
                  simp only [Device.headReady]
                  rw [Option.isSome_iff_exists] at hp
                  obtain ⟨a, ha⟩ := hp
                  simp [ha]
                simp [this]
            rw [stuck, stuck]
        · rfl

/-- A head whose conditions hold executes first. -/
theorem settle_cons (d : Device) (q : QueuedCommand) (rest : List QueuedCommand) (hc : d.control.commands = q :: rest)
    (hr : d.headReady q = true) : d.settle = (executeHead q d).settle := by
  conv_lhs => unfold Device.settle
  have : settleFor d.control.commands.length d = settleFor rest.length (executeHead q d) := by
    rw [hc, List.length_cons, settleFor, hc]; simp [hr]
  rw [this]
  rcases executeHead_commands q d rest hc with h | ⟨h, hnone⟩
  · rw [Device.settle, h]
  · have hp := headEffect_none q d hnone
    have he : executeHead q d = (headEffect q d).1 := by
      unfold executeHead
      split
      · rename_i h'; rw [h'] at hnone; simp at hnone
      · rename_i h'; rw [h']
    have stuck : ∀ k, settleFor k (executeHead q d) = executeHead q d := by
      intro k
      cases k with
      | zero => rfl
      | succ k =>
        simp only [settleFor, h]
        rw [he]
        have : (headEffect q d).1.headReady q = false := by
          simp only [Device.headReady]
          rw [Option.isSome_iff_exists] at hp
          obtain ⟨a, ha⟩ := hp
          simp [ha]
        simp [this]
    rw [Device.settle, stuck, stuck]

/-- Nothing executes while the head waits, however many executions are allowed. -/
theorem settleFor_headsWait (n : Nat) (d : Device) (h : d.headsWait) : settleFor n d = d := by
  cases n with
  | zero => rfl
  | succ n =>
    simp only [settleFor]
    split
    · rfl
    · rename_i q rest hc
      simp [h q (by simp [hc])]

/-- The words of a dropped command change the assembly record alone. -/
theorem dropped_fold (total : Nat) (rest : List Word) (k : Nat) (d : Device) (hr : d.pins.resetN = true)
    (hw : d.headsWait)
    (hd : d.pins.dataOut = none)
    (ha : d.control.assembly = droppingAfter total k) (hl : k + rest.length = total) :
    rest.foldl Device.writeCmd d = { d with control := { d.control with assembly := .idle } } := by
  induction rest generalizing k d with
  | nil =>
    simp only [List.length_nil, Nat.add_zero] at hl
    subst hl
    simp only [droppingAfter, Nat.lt_irrefl, if_false] at ha
    rw [List.foldl_nil, ← ha]
  | cons w rest ih =>
    simp only [List.length_cons] at hl
    have hk : k < total := by omega
    simp only [droppingAfter, hk, if_true] at ha
    have h1 : d.writeCmd w = { d with control := { d.control with assembly := droppingAfter total (k + 1) } } := by
      have : d.written = d := by
        simp only [Device.written, Device.setData, ← hd]
      simp only [Device.writeCmd, hr, if_true, this, Device.takeWord, ha]
      exact settle_headsWait _ hw
    rw [List.foldl_cons, h1,
      ih (k + 1) { d with control := { d.control with assembly := droppingAfter total (k + 1) } } hr hw hd rfl
        (by omega)]

/-- A whole command that does not fit latches CMD_OVERFLOW and changes nothing else (R157, R158). -/
theorem sendCommand_dropped (d : Device) (code low : Byte) (params : List Word) (hr : d.pins.resetN = true)
    (ha : d.control.assembly = .idle) (hf : framed low params = true)
    (hfit : d.freeWords < params.length + 1) (hw : d.headsWait) :
    d.sendCommand code low params =
      { d with
        pins := { d.pins with dataOut := none }
        events := { d.events with latched := d.events.latched ||| 0x0010 } } := by
  have hlen : params.length + 1 = admissionLength (commandWord code low) := by
    rw [admissionLength_commandWord]; exact beq_iff_eq.1 hf
  have hn : ¬ admissionLength (commandWord code low) ≤ d.freeWords := by omega
  have h1 : d.writeCmd (commandWord code low) =
      { d with
        pins := { d.pins with dataOut := none }
        control := { d.control with assembly := droppingAfter (admissionLength (commandWord code low)) 1 }
        events := { d.events with latched := d.events.latched ||| 0x0010 } } := by
    have hn' : ¬ admissionLength (commandWord code low) ≤ d.written.freeWords := hn
    have ha' : d.written.control.assembly = .idle := ha
    simp only [Device.writeCmd, hr, if_true, Device.takeWord, ha', Device.firstWord, hn', if_false]
    rw [settle_headsWait]
    · simp only [Device.latch, Device.written, Device.setData, hr]; rfl
    · exact hw
  simp only [Device.sendCommand, Device.sendWords, List.foldl_cons, h1]
  have h2 := dropped_fold (admissionLength (commandWord code low)) params 1
    { d with
        pins := { d.pins with dataOut := none }
        control := { d.control with assembly := droppingAfter (admissionLength (commandWord code low)) 1 }
        events := { d.events with latched := d.events.latched ||| 0x0010 } } hr hw rfl rfl (by omega)
  rw [h2]
  simp [← ha]

/-- A head that waits after a command has joined waited before. -/
theorem queueing_headsWait (d : Device) (w : Word) (ps : List Word) (h : (d.queueing w ps).headsWait) : d.headsWait :=
    by
  intro q hq
  have := h q (by
    cases hc : d.control.commands with
    | nil => simp [hc] at hq
    | cons c rest => simp [hc] at hq; simp [Device.queueing, hc, hq])
  exact this

/-- PIXEL_READ is refused, or begins. -/
theorem pixelReadAtHead_cases (ps : List Word) (d : Device) :
    (∃ r, pixelReadAtHead ps d = (d, some r)) ∨ ∃ x, pixelReadAtHead ps d = ({ d with pixelRead := some x }, none) :=
        by
  unfold pixelReadAtHead
  split
  · split
    · split
      · exact Or.inl ⟨_, rfl⟩
      · simp only
        split
        · exact Or.inr ⟨_, rfl⟩
        · exact Or.inl ⟨_, rfl⟩
    · exact Or.inl ⟨_, rfl⟩
  · exact Or.inl ⟨_, rfl⟩

end Sys2Proof.Machine
end

