-- ==== Sys2Proof/Laws/JobQueue.lean ====
section
/-! SUPPORT. The job queue: changes of one job, admission, start and abort (R146, R148, R152). -/

namespace Sys2Proof.Machine

/-- Changing a job changes no number of jobs. -/
theorem length_updateFirst (test : Job → Bool) (c : Job → Job) (l : List Job) : (updateFirst test c l).length
    = l.length := by
  induction l with
  | nil => rfl
  | cons j l ih => simp only [updateFirst]; split <;> simp [ih]

/-- Changing one job raises a count by one at most. -/
theorem countP_updateFirst_le (test p : Job → Bool) (c : Job → Job) (l : List Job) :
    (updateFirst test c l).countP p ≤ l.countP p + 1 := by
  induction l with
  | nil => simp [updateFirst]
  | cons j l ih =>
    simp only [updateFirst]
    split
    · simp only [List.countP_cons]; split <;> split <;> omega
    · simp only [List.countP_cons]; omega

/-- A change that brings no job into a count raises it not at all. -/
theorem countP_updateFirst_keep (test p : Job → Bool) (c : Job → Job) (l : List Job)
    (h : ∀ j, test j = true → p (c j) = true → p j = true) :
    (updateFirst test c l).countP p ≤ l.countP p := by
  induction l with
  | nil => simp [updateFirst]
  | cons j l ih =>
    simp only [updateFirst]
    split
    · rename_i ht
      simp only [List.countP_cons]
      split
      · rename_i hp; simp [h j ht hp]
      · omega
    · simp only [List.countP_cons]; omega

/-- A change outside a selection leaves the selection. -/
theorem updateFirst_filter (test : Job → Bool) (change : Job → Job) (p : Job → Bool) (l : List Job)
    (h : ∀ j ∈ l, test j = true → p j = false ∧ p (change j) = false) :
    (updateFirst test change l).filter p = l.filter p := by
  induction l with
  | nil => rfl
  | cons j l ih =>
    simp only [updateFirst]
    split
    · rename_i ht
      have := h j (by simp) ht
      simp [this]
    · simp only [List.filter_cons, ih (fun k hk => h k (by simp [hk]))]

/-- The first job that meets a test is changed in its place. -/
theorem updateFirst_split (test : Job → Bool) (c : Job → Job) (before after : List Job) (j : Job)
    (hb : ∀ k ∈ before, test k = false) (hj : test j = true) :
    updateFirst test c (before ++ j :: after) = before ++ c j :: after := by
  induction before with
  | nil => simp [updateFirst, hj]
  | cons k l ih => simp [updateFirst, hb k (by simp), ih (fun x hx => hb x (by simp [hx]))]

/-- The first job that meets a test is found. -/
theorem find_split (test : Job → Bool) (before after : List Job) (j : Job) (hb : ∀ k ∈ before, test k = false)
    (hj : test j = true) :
    (before ++ j :: after).find? test = some j := by
  induction before with
  | nil => simp [hj]
  | cons k l ih => simp [hb k (by simp), ih (fun x hx => hb x (by simp [hx]))]

/-- The start of a job changes the block engine alone. -/
theorem startJob_frame (d : Device) : ∃ engine, d.startJob = { d with engine := engine } := by
  unfold Device.startJob
  split <;> exact ⟨_, rfl⟩

/-- The start of a job changes the oldest QUEUED one, or nothing. -/
theorem startJob_jobs (d : Device) : d.startJob.engine.jobs = d.engine.jobs ∨
   d.startJob.engine.jobs = updateFirst Job.isQueued (fun k => { k with state := .running }) d.engine.jobs := by
  unfold Device.startJob
  split
  · right; rfl
  · left; rfl

/-- The jobs of a closed surface: QUEUED and RUNNING become ABORTED (R152). -/
theorem abortFor_filter (h : Handle) (l : List Job) :
   ((l.map (Job.abortFor h)).filter fun j => j.handle == h) = (l.filter fun j => j.handle == h).map (fun j =>
          if j.state = .queued ∨ j.state = .running then { j with state := .aborted } else j) := by
  induction l with
  | nil => rfl
  | cons j l ih =>
    have hh : (Job.abortFor h j).handle = j.handle := by unfold Job.abortFor; split <;> rfl
    by_cases hj : j.handle = h
    · simp only [List.map_cons, List.filter_cons, hh, hj, beq_self_eq_true, if_true, ih]
      congr 1
      simp [Job.abortFor, hj, Job.isQueued, Job.isRunning]
    · have : (j.handle == h) = false := by simp [hj]
      simp only [List.map_cons, List.filter_cons, hh, this, ih]
      rfl

/-- Admission makes the job queue longer by one. -/
theorem admitJob_length (d : Device) (k : JobKind) (h : Handle) (t : BufferId) (r : Rect) :
    (d.admitJob k h t r).engine.jobs.length = d.engine.jobs.length + 1 := by
  unfold Device.admitJob Device.startJob
  split
  · simp [length_updateFirst]
  · simp

/-- What a start does in the block engine depends on the engine and on where the buffers' pixels lie alone (R148). -/
theorem startJob_engine (d e : Device) (h1 : e.engine = d.engine)
    (h2 : ∀ i, (e.surface i).pixelAt = (d.surface i).pixelAt) : e.startJob.engine = d.startJob.engine := by
  have hr : ∀ j, e.jobRequest j = d.jobRequest j := by
    intro j; unfold Device.jobRequest Device.jobPos; simp only [h2]
  unfold Device.startJob Device.runningJob
  rw [h1]
  split
  · simp only [hr]
  · exact h1

end Sys2Proof.Machine
end

