-- ==== Sys2Proof/Laws/Memory.lean ====
section
/-! SUPPORT. The frame store: what a write leaves at every address, and that the canonical form is kept. -/

namespace Sys2Proof.Machine

/-- Every entry of a canonical store lies at or above a bound below its first entry. -/
theorem Memory.lookupByte_none (m : Memory) (a : Nat) (h : ∀ c ∈ m, a < c.1) : m.lookupByte a = none := by
  induction m with
  | nil => rfl
  | cons c m ih =>
    have hc := h c (by simp)
    simp only [Memory.lookupByte, if_neg (Nat.ne_of_gt hc)]
    exact ih fun e he => h e (List.mem_cons_of_mem _ he)

/-- A write of one byte: that address holds the byte, every other one what it held. -/
theorem Memory.lookupByte_writeByte (m : Memory) (hm : m.Pairwise (fun c e => c.1 < e.1)) (a b : Nat) (v : Byte) :
    (m.writeByte a v).lookupByte b = if b = a then some v else m.lookupByte b := by
  induction m with
  | nil =>
    simp only [Memory.writeByte, Memory.lookupByte, eq_comm]
  | cons c m ih =>
    obtain ⟨hlow, htail⟩ := List.pairwise_cons.1 hm
    simp only [Memory.writeByte]
    split
    · simp only [Memory.lookupByte, eq_comm]
    · split
      · rename_i hne heq
        subst heq
        by_cases hb : b = c.1
        · simp [Memory.lookupByte, hb]
        · simp [Memory.lookupByte, Ne.symm hb, hb]
      · rename_i hlt hne
        simp only [Memory.lookupByte, ih htail]
        by_cases hcb : c.1 = b
        · have : b ≠ a := fun h => hne (hcb.trans h)
          simp [hcb, this]
        · simp [hcb]

theorem Memory.mem_writeByte (m : Memory) (a : Nat) (v : Byte) (c : Host.Cell) (h : c ∈ m.writeByte a v) :
    c.1 = a ∨ c ∈ m := by
  induction m with
  | nil => simp only [Memory.writeByte, List.mem_singleton] at h; exact .inl (by rw [h])
  | cons e m ih =>
    simp only [Memory.writeByte] at h
    split at h
    · rcases List.mem_cons.1 h with h | h
      · exact .inl (by rw [h])
      · exact .inr h
    · split at h
      · rcases List.mem_cons.1 h with h | h
        · exact .inl (by rw [h])
        · exact .inr (List.mem_cons_of_mem _ h)
      · rcases List.mem_cons.1 h with h | h
        · exact .inr (by rw [h]; exact List.mem_cons_self)
        · exact (ih h).imp_right (List.mem_cons_of_mem _)

theorem Memory.pairwise_writeByte (m : Memory) (hm : m.Pairwise (fun c e => c.1 < e.1)) (a : Nat) (v : Byte) :
    (m.writeByte a v).Pairwise (fun c e => c.1 < e.1) := by
  induction m with
  | nil => simp [Memory.writeByte]
  | cons c m ih =>
    obtain ⟨hlow, htail⟩ := List.pairwise_cons.1 hm
    simp only [Memory.writeByte]
    split
    · rename_i hlt
      refine List.pairwise_cons.2 ⟨fun e he => ?_, hm⟩
      rcases List.mem_cons.1 he with he | he
      · rw [he]; exact hlt
      · exact Nat.lt_trans hlt (hlow e he)
    · split
      · rename_i heq
        exact List.pairwise_cons.2 ⟨fun e he => heq ▸ hlow e he, htail⟩
      · rename_i hlt hne
        refine List.pairwise_cons.2 ⟨fun e he => ?_, ih htail⟩
        rcases Memory.mem_writeByte m a v e he with he | he
        · rw [he]; omega
        · exact hlow e he

/-- A write of a byte of the store keeps the canonical form. -/
theorem Memory.wf_writeByte (m : Memory) (hm : m.wf) (a : Nat) (ha : a < Config.storeBytes) (v : Byte) :
    (m.writeByte a v).wf :=
  ⟨Memory.pairwise_writeByte m hm.1 a v, fun c hc =>
    (Memory.mem_writeByte m a v c hc).elim (fun h => h ▸ ha) (hm.2 c)⟩

/-- Both bytes of a pixel position lie in the store (R25). -/
theorem PixelPos.address_lt (p : PixelPos) : p.address + 1 < Config.storeBytes := by
  have hs := p.slab.isLt
  have hp := p.place.isLt
  simp only [PixelPos.address, Config.slabBytes, Config.storeBytes]
  omega

/-- Different pixel positions have different addresses (R25). -/
theorem PixelPos.address_inj (p q : PixelPos) (h : p.address = q.address) : p = q := by
  have hp := p.place.isLt
  have hq := q.place.isLt
  simp only [PixelPos.address, Config.slabBytes] at h
  have hs : p.slab.val = q.slab.val := by omega
  have ht : p.place.val = q.place.val := by omega
  cases p; cases q
  simp only [PixelPos.mk.injEq]
  exact ⟨Fin.ext hs, Fin.ext ht⟩

/-- A write of a pixel keeps the canonical form. -/
theorem Memory.wf_writePixel (m : Memory) (hm : m.wf) (p : PixelPos) (w : Pixel) : (m.writePixel p w).wf :=
  Memory.wf_writeByte _ (Memory.wf_writeByte m hm _ (Nat.lt_of_succ_lt p.address_lt) _) _ p.address_lt _

/-- A write of a pixel leaves every byte outside its two addresses. -/
theorem Memory.readByte_writePixel (m : Memory) (hm : m.wf) (p : PixelPos) (w : Pixel) (a : Nat)
    (h0 : a ≠ p.address) (h1 : a ≠ p.address + 1) : (m.writePixel p w).readByte a = m.readByte a := by
  simp only [Memory.readByte, Memory.writePixel,
    Memory.lookupByte_writeByte _ (Memory.pairwise_writeByte m hm.1 _ _), Memory.lookupByte_writeByte m hm.1,
    if_neg h0, if_neg h1]

/-- A pixel reads as it was written (R36). -/
theorem Memory.readPixel_writePixel (m : Memory) (hm : m.wf) (p : PixelPos) (w : Pixel) :
    (m.writePixel p w).readPixel p = w := by
  simp only [Memory.readPixel, Memory.readByte, Memory.writePixel,
    Memory.lookupByte_writeByte _ (Memory.pairwise_writeByte m hm.1 _ _), Memory.lookupByte_writeByte m hm.1,
    if_pos, Option.getD_some, if_neg (Nat.ne_of_lt (Nat.lt_succ_self p.address))]
  apply BitVec.eq_of_getLsbD_eq
  intro i hi
  simp only [BitVec.getLsbD_append, BitVec.getLsbD_extractLsb']
  by_cases h : i < 8
  · simp [h]
  · have h8 : i - 8 < 8 := by omega
    have hi8 : 8 + (i - 8) = i := by omega
    simp [h, h8, hi8]

/-- A write of one pixel leaves every other pixel position (R32). -/
theorem Memory.readPixel_writePixel_other (m : Memory) (hm : m.wf) (p q : PixelPos) (w : Pixel) (h : q ≠ p) :
    (m.writePixel p w).readPixel q = m.readPixel q := by
  have hne : q.address ≠ p.address := fun e => h (PixelPos.address_inj q p e)
  have hdiv : q.address % 2 = 0 ∧ p.address % 2 = 0 := by
    simp only [PixelPos.address, Config.slabBytes]; omega
  simp only [Memory.readPixel]
  rw [Memory.readByte_writePixel m hm p w _ (by omega) (by omega),
    Memory.readByte_writePixel m hm p w _ (by omega) (by omega)]

end Sys2Proof.Machine
end

