-- ==== Sys2Proof/Laws/Orders.lean ====
section
/-! SUPPORT. The pending order after a PLACE (R65), and what DISCARD leaves (R57). -/

namespace Sys2Proof.Machine

/-- Insertion after an anchor (R65). -/
theorem insertAbove_split (a h : Handle) (l m : List Handle) (hl : a ∉ l) : insertAbove a h (l ++ a :: m)
    = l ++ a :: h :: m := by
  induction l with
  | nil => simp [insertAbove]
  | cons k l ih =>
    simp only [List.mem_cons, not_or] at hl
    have hne : ¬ k = a := fun x => hl.1 x.symm
    simp [insertAbove, hne, ih hl.2]

/-- Insertion before an anchor (R65). -/
theorem insertBelow_split (a h : Handle) (l m : List Handle) (hl : a ∉ l) : insertBelow a h (l ++ a :: m)
    = l ++ h :: a :: m := by
  induction l with
  | nil => simp [insertBelow]
  | cons k l ih =>
    simp only [List.mem_cons, not_or] at hl
    have hne : ¬ k = a := fun x => hl.1 x.symm
    simp [insertBelow, hne, ih hl.2]

/-- The place of a handle that stands once. -/
theorem idxOf_split (h : Handle) (l m : List Handle) (hl : h ∉ l) : (l ++ h :: m).idxOf h = l.length := by
  rw [List.idxOf_append_of_notMem hl]; simp

/-- Insertion after an anchor adds the handle and moves nothing out. -/
theorem insertAbove_perm (a h : Handle) (l : List Handle) : (insertAbove a h l).Perm (h :: l) := by
  induction l with
  | nil => exact List.Perm.refl _
  | cons k l ih =>
    simp only [insertAbove]
    split
    · exact List.Perm.swap h k l
    · exact (List.Perm.cons k ih).trans (List.Perm.swap h k l)

/-- Insertion before an anchor adds the handle and moves nothing out. -/
theorem insertBelow_perm (a h : Handle) (l : List Handle) : (insertBelow a h l).Perm (h :: l) := by
  induction l with
  | nil => exact List.Perm.refl _
  | cons k l ih =>
    simp only [insertBelow]
    split
    · exact List.Perm.refl _
    · exact (List.Perm.cons k ih).trans (List.Perm.swap h k l)

/-- PLACE keeps the other handles (R65). -/
theorem placed_perm (l : List Handle) (h a : Handle) (p : Placement) : (placed l h p a).Perm (h :: l.erase h) := by
  cases p
  · exact List.perm_append_singleton h _
  · exact List.Perm.refl _
  · exact insertAbove_perm a h _
  · exact insertBelow_perm a h _

/-- What DISCARD does to generation, slabs and state of a record (R57). -/
theorem discarded_facts (s : Surface) : s.discarded.generation = s.generation ∧ s.discarded.heldSlabs = s.heldSlabs
    ∧ s.discarded.state = (match s.state with | .closing => .live | x => x) := by
  unfold Surface.discarded
  cases h : s.state <;> simp [h, Surface.heldSlabs]

/-- A record after DISCARD. -/
theorem discardBatch_surface (d : Device) (i : Slot) : d.discardBatch.surface i = (d.surface i).discarded := by
  rw [← mapSurfaces_get d (fun _ s => s.discarded) i]
  unfold Device.discardBatch Device.surface
  rfl

theorem discardBatch_store (d : Device) : d.discardBatch.store = d.store := by
  simp only [Device.discardBatch, Device.mapSurfaces]

theorem discardBatch_control (d : Device) : d.discardBatch.control = d.control := by
  simp only [Device.discardBatch, Device.mapSurfaces]

theorem discardBatch_engine (d : Device) : d.discardBatch.engine = d.engine := by
  simp only [Device.discardBatch, Device.mapSurfaces]

theorem discardBatch_reading (d : Device) : d.discardBatch.pixelRead = d.pixelRead := by
  simp only [Device.discardBatch, Device.mapSurfaces]

theorem discardBatch_freeSlabs (d : Device) : d.discardBatch.freeSlabs = d.freeSlabs := by
  simp only [Device.discardBatch, Device.mapSurfaces]

theorem discardBatch_pending (d : Device) : d.discardBatch.staging.order = d.layers.order := by
  simp only [Device.discardBatch, Device.mapSurfaces]

theorem discardBatch_layers (d : Device) : d.discardBatch.layers = d.layers := by
  simp only [Device.discardBatch, Device.mapSurfaces]

theorem discardBatch_ports (d : Device) : d.discardBatch.ports = d.ports := by
  simp only [Device.discardBatch, Device.mapSurfaces]

theorem discardBatch_timeBase (d : Device) : d.discardBatch.timeBase = d.timeBase := by
  simp only [Device.discardBatch, Device.mapSurfaces]

theorem discardBatch_port (d : Device) (n : PortNum) : d.discardBatch.port n = d.port n := by
  rw [Device.port_eq, discardBatch_ports, Device.port_eq]

end Sys2Proof.Machine
end

