-- ==== Sys2Proof/Laws/Ports.lean ====
section
/-! SUPPORT. Ports: bindings, and what withdrawal, early ends and abandonment leave (R130, R134, R135). -/

namespace Sys2Proof.Machine

/-- Reading a port after a port has been replaced. -/
theorem port_setPort (d : Device) (m n : PortNum) (p : Port) : (d.setPort m p).port n = if n
    = m then p else d.port n := by
  rw [Device.setPort_port]; by_cases h : n = m
  · simp [h]
  · have : ¬ m = n := fun x => h x.symm
    simp [h, this]

/-- The bound port has the binding. -/
theorem boundPort_some {d : Device} {h : Handle} {n : PortNum} (hb : d.boundPort h = some n) : (d.port n).binding
    = some h := by
  have := List.find?_some hb; simpa using this

/-- No bound port: no port has the binding. -/
theorem boundPort_none {d : Device} {h : Handle} (hb : d.boundPort h = none) (n : PortNum) :
    (d.port n).binding ≠ some h := by
  simp [Device.boundPort, allPorts] at hb; exact hb n

/-- The only port with a binding is the bound port. -/
theorem boundPort_of (d : Device) (h : Handle) (n : PortNum) (hb : (d.port n).binding = some h)
    (hu : ∀ m, (d.port m).binding = some h → m = n) : d.boundPort h = some n := by
  cases hq : d.boundPort h with
  | none => exact absurd hb (boundPort_none hq n)
  | some m => rw [hu m (boundPort_some hq)]

/-- A grant taken first changes nothing, or makes the one write that the arbiter grants next, as the free value says. -/
theorem grantFirst_cases (d : Device) (w : RotatingClient → Bool) :
    d.grantFirst w = d ∨ ∃ c r, w c = true ∧ d.nextGrant = some (.rotating c) ∧ d.waitingWrite c = some r
      ∧ d.grantFirst w = { d with
          store := if Config.grantTakenFirst d.freeIndex then d.store.writePixel r.pos r.pixel else d.store
          rotation := if Config.grantTakenFirst d.freeIndex then c else d.rotation
          freeIndex := d.freeIndex + 1 } := by
  unfold Device.grantFirst
  cases hg : d.grantable w with
  | none => exact Or.inl rfl
  | some x =>
    obtain ⟨c, r⟩ := x
    refine Or.inr ⟨c, r, ?_⟩
    unfold Device.grantable at hg
    split at hg
    · rename_i c' hn
      split at hg
      · rename_i hw
        cases hq : d.waitingWrite c' with
        | none => rw [hq] at hg; cases hg
        | some r' =>
          rw [hq] at hg
          simp only [Option.map_some, Option.some.injEq, Prod.mk.injEq] at hg
          obtain ⟨h1, h2⟩ := hg
          subst h1 h2
          exact ⟨hw, hn, hq, rfl⟩
      · cases hg
    · cases hg
    · cases hg

/-- Without a waiting write among those that are withdrawn, no grant is taken first. -/
theorem grantFirst_none (d : Device) (w : RotatingClient → Bool) (h : ∀ c, w c = true → d.waitingWrite c = none) :
    d.grantFirst w = d := by
  rcases grantFirst_cases d w with h' | ⟨c, r, hw, _, hr, _⟩
  · exact h'
  · rw [h c hw] at hr; cases hr

/-- No grant is taken first when none of the waiting writes that are withdrawn is the one the arbiter grants next. -/
theorem grantFirst_of_not (d : Device) (w : RotatingClient → Bool)
    (h : ∀ c r, w c = true → d.waitingWrite c = some r → d.grants (.rotating c) = false) : d.grantFirst w = d := by
  rcases grantFirst_cases d w with h' | ⟨c, r, hw, hn, hr, _⟩
  · exact h'
  · have := h c r hw hr
    simp [Device.grants, hn] at this

/-- The write of a withdrawn client that the arbiter grants next is made first or not, as the free value says. -/
theorem grantFirst_of (d : Device) (w : RotatingClient → Bool) (c : RotatingClient) (r : WriteRequest)
    (hw : w c = true) (hg : d.grants (.rotating c) = true) (hr : d.waitingWrite c = some r) :
    d.grantFirst w = { d with
      store := if Config.grantTakenFirst d.freeIndex then d.store.writePixel r.pos r.pixel else d.store
      rotation := if Config.grantTakenFirst d.freeIndex then c else d.rotation
      freeIndex := d.freeIndex + 1 } := by
  have hn : d.nextGrant = some (.rotating c) := by simpa [Device.grants] using hg
  unfold Device.grantFirst Device.grantable
  rw [hn]
  simp only [hw, if_true, hr, Option.map_some]

/-- A grant taken first leaves every pixel but those of the waiting writes that are withdrawn. -/
theorem grantFirst_readPixel (d : Device) (w : RotatingClient → Bool) (hm : Memory.wf d.store) (q : PixelPos)
    (h : ∀ c r, w c = true → d.waitingWrite c = some r → q ≠ r.pos) :
    (d.grantFirst w).store.readPixel q = d.store.readPixel q := by
  rcases grantFirst_cases d w with h' | ⟨c, r, hw, _, hr, h'⟩
  · rw [h']
  · rw [h']
    show (if Config.grantTakenFirst d.freeIndex then d.store.writePixel r.pos r.pixel else d.store).readPixel q = _
    split
    · exact Memory.readPixel_writePixel_other _ hm _ _ _ (h c r hw hr)
    · rfl

/-- What a grant taken first can change. -/
theorem grantFirst_frame (d : Device) (w : RotatingClient → Bool) :
    ∃ store rotation freeIndex, d.grantFirst w = { d with store := store, rotation := rotation, freeIndex := freeIndex } := by
  rcases grantFirst_cases d w with h | ⟨c, r, _, _, _, h⟩
  · exact ⟨_, _, _, h⟩
  · exact ⟨_, _, _, h⟩

/-- A grant taken first leaves the ports. -/
@[simp] theorem grantFirst_port (d : Device) (w : RotatingClient → Bool) (n : PortNum) :
    (d.grantFirst w).port n = d.port n := by
  obtain ⟨_, _, _, h⟩ := grantFirst_frame d w
  rw [h]; rfl

/-- The port after it has been cut short (R128, R134, R135). -/
theorem cutShort_port (d : Device) (n m : PortNum) (c : PortError) :
    (d.cutShort n c).port m = if m = n then
      { d.port n with
        writeRequest := none
        lastError := c
        errorCount := if (d.port n).errorCount < 255 then (d.port n).errorCount + 1 else 255
        state := .discarding, header := [], burst := none, interval := none } else d.port m := by
  unfold Device.cutShort
  simp only [port_setPort]
  have h1 : ∀ k, (d.recordError n c).port k = if k = n then { d.port n with
    lastError := c
    errorCount := if (d.port n).errorCount < 255 then (d.port n).errorCount + 1 else 255 } else d.port k := by
    intro k; exact port_setPort d n k _
  rw [h1, h1]
  simp only [if_true]
  split <;> rfl

/-- What an early end can change. -/
theorem endEarly_frame (d : Device) (n : PortNum) (c : PortError) :
    ∃ store rotation freeIndex ports events, d.endEarly n c
        = { d with store := store, rotation := rotation, freeIndex := freeIndex, ports := ports, events := events }
      ∧ ((d.port n).writeRequest = none → store = d.store) := by
  unfold Device.endEarly
  by_cases hw : (d.port n).writeRequest = none
  · rw [grantFirst_none d _ (by
      intro c hc
      rw [beq_iff_eq] at hc; subst hc; exact hw)]
    exact ⟨_, _, _, _, _, rfl, fun _ => rfl⟩
  · obtain ⟨a, b, e, h⟩ := grantFirst_frame d fun c => c == .port n
    rw [h]
    exact ⟨a, b, e, _, _, rfl, fun h' => absurd h' hw⟩

/-- The port after an early end (R128, R134, R135). -/
theorem endEarly_port (d : Device) (n m : PortNum) (c : PortError) :
    (d.endEarly n c).port m = if m = n then
      { d.port n with
        writeRequest := none
        lastError := c
        errorCount := if (d.port n).errorCount < 255 then (d.port n).errorCount + 1 else 255
        state := .discarding, header := [], burst := none, interval := none } else d.port m := by
  unfold Device.endEarly
  simp only [cutShort_port, grantFirst_port]

/-- A header or burst cut short, as one record update (R128, R130, R134, R135). -/
theorem cutShort_eq (d : Device) (n : PortNum) (c : PortError) (p : Port) (hp : p = d.port n) :
    d.cutShort n c = { d with
      ports := d.ports.set n
        { p with
          state := .discarding
          header := []
          burst := none
          writeRequest := none
          interval := none
          lastError := c
          errorCount := if p.errorCount < 255 then p.errorCount + 1 else 255 }
      events := { d.events with latched := d.events.latched ||| bitsAt 1 (6 + n.val) } } := by
  subst hp
  simp only [Device.cutShort, Device.recordError, Device.latch, Device.setPort, eventBit]
  simp [Device.port]

/-- An early end of a port whose write the arbiter does not grant next: nothing is granted first. -/
theorem endEarly_plain (d : Device) (n : PortNum) (c : PortError)
    (h : (d.port n).writeRequest = none ∨ d.grants (.rotating (.port n)) = false) :
    d.endEarly n c = d.cutShort n c := by
  unfold Device.endEarly
  rw [grantFirst_of_not]
  intro x r hx hr
  rw [beq_iff_eq] at hx; subst hx
  rcases h with h | h
  · rw [show d.waitingWrite (.port n) = (d.port n).writeRequest from rfl, h] at hr; cases hr
  · exact h

/-- An early end of the port whose write the arbiter grants next: the free value decides whether it is made (R35). -/
theorem endEarly_granted (d : Device) (n : PortNum) (c : PortError) (r : WriteRequest)
    (hr : (d.port n).writeRequest = some r) (hg : d.grants (.rotating (.port n)) = true) :
    d.endEarly n c = { d.cutShort n c with
      store := if Config.grantTakenFirst d.freeIndex then d.store.writePixel r.pos r.pixel else d.store
      rotation := if Config.grantTakenFirst d.freeIndex then .port n else d.rotation
      freeIndex := d.freeIndex + 1 } := by
  unfold Device.endEarly
  rw [grantFirst_of d _ (.port n) r (by simp) hg hr]; rfl

/-- The write that the block engine has waiting. -/
theorem waitingWrite_blockEngine (d : Device) (r : WriteRequest) :
    d.waitingWrite .blockEngine = some r ↔ d.engine.request = some (.write r) := by
  unfold Device.waitingWrite
  cases h : d.engine.request with
  | none => simp
  | some x => cases x <;> simp

/-- The port after a scene reset's part (R139). -/
theorem leavePort_port (d : Device) (n m : PortNum) :
    (d.leavePort n).port m = if m = n then
      (if (d.port n).state.inProgress then
      { d.port n with
        writeRequest := none
        lastError := .abandoned
        errorCount := if (d.port n).errorCount < 255 then (d.port n).errorCount + 1 else 255
        state := .discarding, header := [], burst := none, interval := none, binding := none }
      else { d.port n with binding := none }) else d.port m := by
  unfold Device.leavePort
  simp only [port_setPort]
  cases (d.port n).state.inProgress
  · simp
  · simp only [cutShort_port, if_true]
    split <;> rfl

/-- What a scene reset's part changes at one port: the port, and its PORTn when a header or burst was in progress. -/
theorem leavePort_frame (d : Device) (n : PortNum) :
    ∃ ports, d.leavePort n = { d with
      ports := ports
      events :=
        if (d.port n).state.inProgress then { d.events with latched := d.events.latched ||| bitsAt 1 (6 + n.val) }
        else d.events } := by
  unfold Device.leavePort
  split
  · exact ⟨_, rfl⟩
  · exact ⟨_, rfl⟩

/-- The bits of a mask of one bit. -/
theorem bitsAt_one_getLsbD (m k : Nat) (hm : m < 16) : (bitsAt 1 m).getLsbD k = decide (k = m) := by
  rw [Bool.eq_iff_iff, decide_eq_true_iff, bitsAt, BitVec.getLsbD_shiftLeft]
  simp only [Bool.and_eq_true, decide_eq_true_eq, Bool.not_eq_true', decide_eq_false_iff_not, not_lt,
    BitVec.getLsbD_ofNat, Nat.testBit_one_eq_true_iff_self_eq_zero]
  omega

/-- What a scene reset's part changes at several ports, none twice. -/
theorem foldLeave (l : List PortNum) (hl : l.Nodup) (d : Device) :
    (∃ ports events, l.foldl Device.leavePort d = { d with ports := ports, events := events }
      ∧ events.enabled = d.events.enabled)
    ∧ (∀ k, (l.foldl Device.leavePort d).events.latched.getLsbD k = true ↔ d.events.latched.getLsbD k = true
      ∨ ∃ n ∈ l, k = 6 + n.val ∧ (d.port n).state.inProgress = true)
    ∧ ∀ m, (l.foldl Device.leavePort d).port m = if m ∈ l then (d.leavePort m).port m else d.port m := by
  induction l generalizing d with
  | nil => exact ⟨⟨_, _, rfl, rfl⟩, by simp, by simp⟩
  | cons n l ih =>
    rw [List.nodup_cons] at hl
    obtain ⟨⟨p, v, h1, h2⟩, h3, h4⟩ := ih hl.2 (d.leavePort n)
    obtain ⟨p', h5⟩ := leavePort_frame d n
    refine ⟨⟨p, v, by rw [List.foldl_cons, h1, h5], by rw [h2, h5]; simp only []; split <;> rfl⟩, fun k => ?_, fun m => ?_⟩
    · have hs : ∀ m ∈ l, ((d.leavePort n).port m).state = (d.port m).state := by
        intro m hm
        have : m ≠ n := fun e => hl.1 (e ▸ hm)
        rw [leavePort_port, if_neg this]
      rw [List.foldl_cons, h3, h5]
      have hx : (∃ m ∈ l, k = 6 + m.val ∧ ((d.leavePort n).port m).state.inProgress = true)
          ↔ ∃ m ∈ l, k = 6 + m.val ∧ (d.port m).state.inProgress = true := by
        constructor <;> rintro ⟨m, hm, hk, hp⟩ <;> refine ⟨m, hm, hk, ?_⟩
        · rw [← hs m hm]; exact hp
        · rw [hs m hm]; exact hp
      rw [h5] at hx
      rw [hx]
      cases hp : (d.port n).state.inProgress
      · simp [hp]
      · have := n.isLt
        simp [hp, bitsAt_one_getLsbD _ _ (show 6 + n.val < 16 by omega), or_assoc]
    · rw [List.foldl_cons, h4]
      simp only [leavePort_port, if_true, List.mem_cons]
      by_cases hm : m = n
      · subst hm; simp [hl.1]
      · simp [hm]

/-- What the stream ports' part of a scene reset changes, after the grant that may come first (R35, R139). -/
theorem abandonAll_frame (d : Device) :
    ∃ ports events, d.abandonAll = { d.grantFirst d.portInProgress with ports := ports, events := events }
      ∧ events.enabled = d.events.enabled := by
  obtain ⟨p, v, h1, h2⟩ := (foldLeave allPorts (by decide) (d.grantFirst d.portInProgress)).1
  obtain ⟨_, _, _, h⟩ := grantFirst_frame d d.portInProgress
  exact ⟨p, v, h1, by rw [h2, h]⟩

/-- Every port after the stream ports' part of a scene reset. -/
theorem abandonAll_port (d : Device) (m : PortNum) : d.abandonAll.port m = (d.leavePort m).port m := by
  unfold Device.abandonAll
  rw [(foldLeave allPorts (by decide) _).2.2, if_pos (by simp [allPorts]), leavePort_port, leavePort_port,
    grantFirst_port]

/-- The latched flags after the stream ports' part of a scene reset. -/
theorem abandonAll_latched (d : Device) (k : Nat) :
    d.abandonAll.events.latched.getLsbD k = true ↔ d.events.latched.getLsbD k = true
      ∨ ∃ n : PortNum, k = 6 + n.val ∧ (d.port n).state.inProgress = true := by
  obtain ⟨_, _, _, h⟩ := grantFirst_frame d d.portInProgress
  unfold Device.abandonAll
  rw [(foldLeave allPorts (by decide) _).2.1]
  simp only [grantFirst_port]
  rw [h]
  simp [allPorts]

/-! The blocks after a scene reset's part other than the stream ports'. -/

@[simp] theorem Device.clearScene_pins (d : Device) : d.clearScene.pins = d.pins := by
  unfold Device.clearScene; rfl
@[simp] theorem Device.clearScene_pixelRead (d : Device) : d.clearScene.pixelRead = d.pixelRead := by
  unfold Device.clearScene; rfl
@[simp] theorem Device.clearScene_store (d : Device) : d.clearScene.store = d.store := by
  unfold Device.clearScene; rfl
@[simp] theorem Device.clearScene_rotation (d : Device) : d.clearScene.rotation = d.rotation := by
  unfold Device.clearScene; rfl
@[simp] theorem Device.clearScene_ports (d : Device) : d.clearScene.ports = d.ports := by
  unfold Device.clearScene; rfl
@[simp] theorem Device.clearScene_events (d : Device) : d.clearScene.events = d.events := by
  unfold Device.clearScene; rfl
@[simp] theorem Device.clearScene_timeBase (d : Device) : d.clearScene.timeBase = d.timeBase := by
  unfold Device.clearScene; rfl
@[simp] theorem Device.clearScene_freeIndex (d : Device) : d.clearScene.freeIndex = d.freeIndex := by
  unfold Device.clearScene; rfl
@[simp] theorem Device.clearScene_scan (d : Device) : d.clearScene.scan = d.scan.sceneReset := by
  unfold Device.clearScene; rfl
@[simp] theorem Device.clearScene_layers (d : Device) : d.clearScene.layers = { d.layers with order := [] } := by
  unfold Device.clearScene; rfl
@[simp] theorem Device.clearScene_engine (d : Device) : d.clearScene.engine = { d.engine with jobs := [], request := none } := by
  unfold Device.clearScene; rfl
@[simp] theorem Device.clearScene_control (d : Device) : d.clearScene.control = { d.control with completions := [], completionRead := 0 } := by
  unfold Device.clearScene; rfl
@[simp] theorem Device.clearScene_staging (d : Device) : d.clearScene.staging = { d.staging with
      state := .opened, dirty := false, order := [], background := d.layers.background } := by
  unfold Device.clearScene; rfl
@[simp] theorem Device.clearScene_port (d : Device) (n : PortNum) : d.clearScene.port n = d.port n := by
  unfold Device.clearScene Device.port; rfl
@[simp] theorem Device.clearScene_surface (d : Device) (i : Slot) :
    d.clearScene.surface i = Surface.freed (d.surface i).generation := by
  unfold Device.clearScene Device.surface
  show (Vector.ofFn fun (i : Slot) => d.surfaces[i].sceneReset)[i.val] = _
  rw [Vector.getElem_ofFn]; rfl
@[simp] theorem Device.clearScene_freeSlabs (d : Device) : d.clearScene.freeSlabs = allSlabs := by
  simp only [Device.clearScene]

/-- What abandonment can change. -/
theorem abandonPort_frame (d : Device) (n : PortNum) :
    ∃ store rotation freeIndex ports events, d.abandonPort n
        = { d with store := store, rotation := rotation, freeIndex := freeIndex, ports := ports, events := events }
      ∧ ((d.port n).writeRequest = none → store = d.store) := by
  unfold Device.abandonPort
  cases (d.port n).state.inProgress
  · exact ⟨_, _, _, _, _, rfl, fun _ => rfl⟩
  · obtain ⟨a, b, e, p, v, h, hs⟩ := endEarly_frame d n .abandoned
    simp only [if_true, h]
    exact ⟨a, b, e, _, v, rfl, hs⟩

/-- The port after abandonment (R134). -/
theorem abandonPort_port (d : Device) (n m : PortNum) :
    (d.abandonPort n).port m = if m = n then
      (if (d.port n).state.inProgress then
      { d.port n with
        writeRequest := none
        lastError := .abandoned
        errorCount := if (d.port n).errorCount < 255 then (d.port n).errorCount + 1 else 255
        state := .discarding, header := [], burst := none, interval := none, binding := none }
      else { d.port n with binding := none }) else d.port m := by
  unfold Device.abandonPort
  simp only [port_setPort]
  cases (d.port n).state.inProgress
  · simp
  · simp only [endEarly_port, if_true]
    split <;> rfl

/-- Abandonment leaves every other port. -/
theorem abandonPort_other (d : Device) (n m : PortNum) (hm : m ≠ n) : (d.abandonPort n).port m = d.port m := by
  rw [abandonPort_port, if_neg hm]

/-- Abandonment unbinds its port. -/
theorem abandonPort_self (d : Device) (n : PortNum) : ((d.abandonPort n).port n).binding = none := by
  rw [abandonPort_port, if_pos rfl]
  split <;> rfl

/-- An early end stops the idle interval of its port alone. -/
theorem endEarly_interval (d : Device) (n m : PortNum) (c : PortError) :
    ((d.endEarly n c).port m).interval = if m = n then none else (d.port m).interval := by
  rw [endEarly_port]
  split <;> rfl

/-- An early end leaves the time base. -/
theorem endEarly_timeBase (d : Device) (n : PortNum) (c : PortError) : (d.endEarly n c).timeBase = d.timeBase := by
  obtain ⟨_, _, _, _, _, h, _⟩ := endEarly_frame d n c
  rw [h]

/-- No port stands twice among the ports. -/
theorem allPorts_nodup : allPorts.Nodup := by decide

/-- The later replacement of a port stands. -/
theorem setPort_setPort (d : Device) (n : PortNum) (p q : Port) : (d.setPort n p).setPort n q = d.setPort n q := by
  simp [Device.setPort]

end Sys2Proof.Machine
end

