-- ==== Sys2Proof/Laws/Slabs.lean ====
section
/-! SUPPORT. The free slab set and slab conservation (R28 to R31). -/

namespace Sys2Proof.Machine

/-- A sum over the slots in order. -/
theorem slotSum (f : Slot → Nat) : (allSlots.map f).sum = ∑ i, f i := by
  unfold allSlots; rw [← List.ofFn_eq_map, List.sum_ofFn]

/-- How often a slab stands, as a sum over the slots. -/
theorem slabCount_eq (d : Device) (k : Slab) : d.slabCount k = d.freeSlabs.count k + ∑ i,
    (d.surface i).heldSlabs.count k := by
  rw [Device.slabCount, slotSum]

/-- How often a slab stands when one record and the free slab set are replaced. -/
theorem slabCount_set (d : Device) (i : Slot) (r : Surface) (pool : List Slab) (k : Slab) :
    Device.slabCount { d.setSurface i r with freeSlabs := pool } k + d.freeSlabs.count k +
        (d.surface i).heldSlabs.count k
      = d.slabCount k + pool.count k + r.heldSlabs.count k := by
  rw [slabCount_eq, slabCount_eq]
  have h1 : ∀ j, Device.surface { d.setSurface i r with freeSlabs := pool } j = if j = i then r else d.surface j := by
    intro j
    have hm := Device.setSurface_surface d i j r
    change Device.surface { d.setSurface i r with freeSlabs := pool } j = _ at hm
    rw [hm]
    by_cases h : i = j
    · subst h; simp
    · have : ¬ j = i := fun x => h x.symm
      simp [h, this]
  simp only [h1]
  rw [← Finset.add_sum_erase _ _ (Finset.mem_univ i), ← Finset.add_sum_erase Finset.univ
      (fun j => (d.surface j).heldSlabs.count k) (Finset.mem_univ i)]
  have h2 : ∑ x ∈ Finset.univ.erase i, List.count k (if x = i then r else d.surface x).heldSlabs
      = ∑ x ∈ Finset.univ.erase i, List.count k (d.surface x).heldSlabs := by
    apply Finset.sum_congr rfl
    intro x hx
    rw [if_neg (Finset.ne_of_mem_erase hx)]
  rw [h2]
  simp only [if_true]
  omega

/-- An inserted slab stands once more. -/
theorem count_insertSlab (s k : Slab) (l : List Slab) (hs : s ∉ l) : (insertSlab s l).count k = l.count k + if s
    = k then 1 else 0 := by
  induction l with
  | nil => by_cases h : s = k <;> simp [insertSlab, h]
  | cons t l ih =>
    simp only [List.mem_cons, not_or] at hs
    simp only [insertSlab]
    split
    · rw [List.count_cons]; by_cases h : s = k <;> simp [h]
    · rw [if_neg hs.1, List.count_cons, ih hs.2, List.count_cons]; omega

/-- The members after an insertion. -/
theorem mem_insertSlab (s k : Slab) (l : List Slab) : k ∈ insertSlab s l ↔ k = s ∨ k ∈ l := by
  induction l with
  | nil => simp [insertSlab]
  | cons t l ih =>
    simp only [insertSlab]
    split
    · simp
    · split
      · rename_i h; subst h; simp
      · simp [ih]; tauto

/-- The members after a return (R30). -/
theorem mem_returnSlabs (k : Slab) (f l : List Slab) : k ∈ returnSlabs f l ↔ k ∈ f ∨ k ∈ l := by
  induction f with
  | nil => simp [returnSlabs]
  | cons s f ih =>
    simp only [returnSlabs, List.foldr_cons] at ih ⊢
    rw [mem_insertSlab, ih]; simp [or_assoc]

/-- An insertion keeps the free slab set ascending. -/
theorem insertSlab_sorted (s : Slab) (l : List Slab) (h : l.Pairwise (· < ·)) : (insertSlab s l).Pairwise (· < ·) :=
    by
  induction l with
  | nil => simp [insertSlab]
  | cons t l ih =>
    rw [List.pairwise_cons] at h
    simp only [insertSlab]
    split
    · rename_i hst
      rw [List.pairwise_cons]
      refine ⟨?_, List.pairwise_cons.2 h⟩
      intro x hx
      rcases List.mem_cons.1 hx with rfl | hx
      · exact hst
      · exact lt_trans hst (h.1 x hx)
    · rename_i hst
      split
      · exact List.pairwise_cons.2 h
      · rename_i hne
        rw [List.pairwise_cons]
        refine ⟨?_, ih h.2⟩
        intro x hx
        rcases (mem_insertSlab s x l).1 hx with rfl | hx
        · exact lt_of_le_of_ne (not_lt.1 hst) (fun e => hne e.symm)
        · exact h.1 x hx

/-- A return keeps the free slab set ascending. -/
theorem returnSlabs_sorted (f l : List Slab) (h : l.Pairwise (· < ·)) : (returnSlabs f l).Pairwise (· < ·) := by
  induction f with
  | nil => exact h
  | cons s f ih => exact insertSlab_sorted s _ ih

/-- Returned slabs stand once more each. -/
theorem count_returnSlabs (f l : List Slab) (k : Slab) (hf : f.Nodup) (hd : ∀ s ∈ f, s ∉ l) :
    (returnSlabs f l).count k = f.count k + l.count k := by
  induction f with
  | nil => simp [returnSlabs]
  | cons s f ih =>
    rw [List.nodup_cons] at hf
    have h1 : s ∉ returnSlabs f l := by
      rw [mem_returnSlabs]; rintro (h | h)
      · exact hf.1 h
      · exact hd s (by simp) h
    have h2 := ih hf.2 (fun x hx => hd x (by simp [hx]))
    show (insertSlab s (returnSlabs f l)).count k = _
    rw [count_insertSlab _ _ _ h1, h2, List.count_cons]
    by_cases h : s = k
    · simp [h]; omega
    · simp [h]

/-- Under slab conservation a surface holds no slab twice and no free one. -/
theorem slabLaw_held (d : Device) (h : d.slabLaw) (i : Slot) : (d.surface i).heldSlabs.Nodup
    ∧ ∀ s ∈ (d.surface i).heldSlabs, s ∉ d.freeSlabs := by
  have key : ∀ k, d.freeSlabs.count k + (d.surface i).heldSlabs.count k ≤ 1 := by
    intro k
    have := h.1 k
    rw [slabCount_eq, ← Finset.add_sum_erase _ _ (Finset.mem_univ i)] at this
    omega
  constructor
  · rw [List.nodup_iff_count_le_one]; intro k; have := key k; omega
  · intro s hs hf
    have := key s
    have h1 := List.one_le_count_iff.2 hs
    have h2 := List.one_le_count_iff.2 hf
    omega

/-- Slab conservation rests on the slab lists, the FREE slots and the free slab set. -/
theorem slabLaw_of (d e : Device) (h1 : ∀ i, (e.surface i).heldSlabs = (d.surface i).heldSlabs)
    (h2 : ∀ i, (e.surface i).state = .free → (d.surface i).state = .free) (h3 : e.freeSlabs = d.freeSlabs)
        (h : d.slabLaw) : e.slabLaw := by
  refine ⟨fun k => ?_, fun i hi => ?_, by rw [h3]; exact h.2.2⟩
  · rw [← h.1 k]; simp only [Device.slabCount, h1, h3]
  · rw [h1]; exact h.2.1 i (h2 i hi)

end Sys2Proof.Machine
end

