-- ==== Sys2Proof/Laws/Effects.lean ====
section
/-! SUPPORT. For each operation of a block, that it keeps each law of Safety by itself; then for the commands and the
run of heads. -/

namespace Sys2Proof.Machine

/-- A change of the device that keeps each law by itself. -/
structure LawsKept (d e : Device) : Prop where
  store : d.storeLaw → e.storeLaw
  queue : d.queueLaw → e.queueLaw
  slab : d.slabLaw → e.slabLaw
  order : d.orderLaw → e.orderLaw
  binding : d.bindingLaw → e.bindingLaw
  interval : d.intervalLaw → e.intervalLaw
  tag : d.tagLaw → e.tagLaw

/-- A change that a block can make inside a step. -/
structure Effect (d e : Device) : Prop extends LawsKept d e where
  commands : e.control.commands = d.control.commands
  responses : e.control.responses = d.control.responses
  reading : e.pixelRead = d.pixelRead

/-- No change is one. -/
theorem Effect.refl (d : Device) : Effect d d := ⟨⟨id, id, id, id, id, id, id⟩, rfl, rfl, rfl⟩

/-- Two changes are one. -/
theorem Effect.trans {d e f : Device} (h : Effect d e) (k : Effect e f) : Effect d f :=
  ⟨⟨k.store ∘ h.store, k.queue ∘ h.queue, k.slab ∘ h.slab, k.order ∘ h.order, k.binding ∘ h.binding,
    k.interval ∘ h.interval, k.tag ∘ h.tag⟩, k.commands.trans h.commands, k.responses.trans h.responses, k.reading.trans h.reading⟩

/-- Changes one after another are one. -/
theorem Effect.foldl {α : Type} (f : Device → α → Device) (hf : ∀ d a, Effect d (f d a)) (l : List α) (d : Device) :
    Effect d (l.foldl f d) := by
  induction l generalizing d with
  | nil => exact .refl d
  | cons a l ih => exact (hf d a).trans (ih (f d a))

/-- Either of two changes is one. -/
theorem Effect.ite {d a b : Device} (p : Prop) [Decidable p] (h : p → Effect d a) (k : ¬p → Effect d b) :
    Effect d (if p then a else b) := by
  split
  · exact h ‹_›
  · exact k ‹_›

theorem effect_latch (d : Device) (e : Event) : Effect d (d.latch e) := ⟨⟨id, id, id, id, id, id, id⟩, rfl, rfl, rfl⟩

theorem effect_grantTo (d : Device) (c : RotatingClient) : Effect d (d.grantTo c) :=
    ⟨⟨id, id, id, id, id, id, id⟩, rfl, rfl, rfl⟩

theorem effect_storePixel (d : Device) (r : WriteRequest) : Effect d (d.storePixel r) :=
  ⟨⟨fun h => Memory.wf_writePixel _ h _ _, id, id, id, id, id, id⟩, rfl, rfl, rfl⟩

/-- Ports change so that no binding is new and every new interval begins now. -/
theorem effect_ports (d : Device) (v : Vector Port 4)
    (h : ∀ n : PortNum, (v[n].binding = (d.port n).binding ∨ v[n].binding = none)
      ∧ (v[n].interval = (d.port n).interval ∨ v[n].interval = none ∨ ∃ s, v[n].interval = some ⟨d.timeBase, s⟩)) :
    Effect d { d with ports := v } := by
  refine ⟨⟨id, id, id, id, ?_, ?_, id⟩, rfl, rfl, rfl⟩
  · rintro ⟨h1, h2⟩
    have old : ∀ n g, v[n].binding = some g → (d.port n).binding = some g := by
      intro n g hg
      rcases (h n).1 with hb | hb
      · rw [← hb]; exact hg
      · rw [hb] at hg; cases hg
    exact ⟨fun m n g hm hn => h1 m n g (old m g hm) (old n g hn), fun n g hg => h2 n g (old n g hg)⟩
  · intro hi n i hni
    have hni' : v[n].interval = some i := hni
    rcases (h n).2 with hb | hb | ⟨s, hb⟩
    · exact hi n i (by rw [← hb]; exact hni')
    · rw [hb] at hni'; cases hni'
    · rw [hb] at hni'; cases hni'
      show d.timeBase ≤ d.timeBase ∧ (s ≠ 0 → d.timeBase ≤ d.timeBase + s.toNat + 1)
      omega

theorem effect_setPort (d : Device) (n : PortNum) (p : Port)
    (hb : p.binding = (d.port n).binding ∨ p.binding = none)
    (hi : p.interval = (d.port n).interval ∨ p.interval = none ∨ ∃ s, p.interval = some ⟨d.timeBase, s⟩) :
    Effect d (d.setPort n p) := by
  apply effect_ports
  intro m
  have hm : (d.ports.set n p)[m] = if m = n then p else d.port m := by
    have := Device.setPort_port d n m p
    change (d.ports.set n p)[m] = _ at this
    rw [this]
    by_cases h : m = n
    · subst h; simp
    · have : ¬ n = m := fun x => h x.symm
      simp [h, this]
  rw [hm]
  split
  · rename_i h; subst h; exact ⟨hb, hi⟩
  · exact ⟨Or.inl rfl, Or.inl rfl⟩

theorem effect_grantFirst (d : Device) (w : RotatingClient → Bool) : Effect d (d.grantFirst w) := by
  rcases grantFirst_cases d w with h | ⟨c, r, _, _, _, h⟩
  · rw [h]; exact .refl d
  · rw [h]
    refine ⟨⟨fun h => ?_, id, id, id, id, id, id⟩, rfl, rfl, rfl⟩
    show Memory.wf (if Config.grantTakenFirst d.freeIndex then d.store.writePixel r.pos r.pixel else d.store)
    split
    · exact Memory.wf_writePixel _ h _ _
    · exact h

theorem effect_recordError (d : Device) (n : PortNum) (c : PortError) : Effect d (d.recordError n c) := by
  unfold Device.recordError
  refine Effect.trans (effect_setPort d n _ ?_ ?_) (effect_latch _ _)
  · exact Or.inl rfl
  · exact Or.inl rfl

theorem effect_cutShort (d : Device) (n : PortNum) (c : PortError) : Effect d (d.cutShort n c) :=
  (effect_recordError d n c).trans (effect_setPort _ n _ (Or.inl rfl) (Or.inr (Or.inl rfl)))

theorem effect_endEarly (d : Device) (n : PortNum) (c : PortError) : Effect d (d.endEarly n c) :=
  (effect_grantFirst d _).trans (effect_cutShort _ n c)

theorem effect_abandonPort (d : Device) (n : PortNum) : Effect d (d.abandonPort n) := by
  unfold Device.abandonPort
  refine Effect.trans (e := if (d.port n).state.inProgress then d.endEarly n .abandoned else d) ?_
    (effect_setPort _ n _ (Or.inr rfl) (Or.inl rfl))
  exact Effect.ite _ (fun _ => effect_endEarly d n _) (fun _ => .refl d)

theorem effect_leavePort (d : Device) (n : PortNum) : Effect d (d.leavePort n) := by
  unfold Device.leavePort
  refine Effect.trans (e := if (d.port n).state.inProgress then d.cutShort n .abandoned else d) ?_
    (effect_setPort _ n _ (Or.inr rfl) (Or.inl rfl))
  exact Effect.ite _ (fun _ => effect_cutShort d n _) (fun _ => .refl d)

theorem effect_examinePort (d : Device) (n : PortNum) : Effect d (d.examinePort n) := by
  unfold Device.examinePort
  split
  · exact Effect.ite _ (fun _ => effect_setPort d n _ (Or.inl rfl) (Or.inr (Or.inr ⟨_, rfl⟩))) (fun _ => .refl d)
  · exact .refl d

theorem effect_examineStall (d : Device) (h : Handle) : Effect d (d.examineStall h) := by
  unfold Device.examineStall
  split
  · exact effect_examinePort d _
  · exact .refl d

/-- The block engine changes, with no more jobs and no more running ones. -/
theorem effect_engine (d : Device) (g : BlockEngine)
    (hl : g.jobs.length ≤ Config.jobCapacity ∨ g.jobs.length ≤ d.engine.jobs.length)
    (hr : g.jobs.countP Job.isRunning ≤ 1 ∨ g.jobs.countP Job.isRunning ≤ d.engine.jobs.countP Job.isRunning) :
    Effect d { d with engine := g } := by
  refine ⟨⟨id, ?_, id, id, id, id, id⟩, rfl, rfl, rfl⟩
  rintro ⟨h1, h2, h3, h4, h5, h6⟩
  exact ⟨h1, h2, h3, by show g.jobs.length ≤ _; omega, by show g.jobs.countP Job.isRunning ≤ 1; omega, h6⟩

theorem effect_startJob (d : Device) : Effect d d.startJob := by
  unfold Device.startJob
  split
  · rename_i j hn _
    apply effect_engine
    · right; simp [length_updateFirst]
    · left
      have h0 : d.engine.jobs.countP Job.isRunning = 0 := by
        rw [List.countP_eq_zero]
        have := List.find?_eq_none.1 hn
        exact this
      have := countP_updateFirst_le Job.isQueued Job.isRunning (fun k => { k with state := .running }) d.engine.jobs
      show (updateFirst Job.isQueued (fun k => { k with state := .running }) d.engine.jobs).countP Job.isRunning ≤ 1
      omega
  · exact .refl d

theorem effect_admitJob (d : Device) (k : JobKind) (h : Handle) (t : BufferId) (r : Rect)
    (hl : d.engine.jobs.length + 1 ≤ Config.jobCapacity) :
    Effect d (d.admitJob k h t r) := by
  refine Effect.trans (effect_engine d _ (Or.inl ?_) (Or.inr ?_)) (effect_startJob _)
  · simpa using hl
  · simp [Job.isRunning]

theorem effect_abortJobs (d : Device) (h : Handle) : Effect d (d.abortJobs h) := by
  refine Effect.trans (effect_engine d _ (Or.inr ?_) (Or.inr ?_)) (effect_startJob _)
  · simp
  · simp only [List.countP_map]
    apply List.countP_mono_left
    intro j _ hj
    simp only [Function.comp_apply, Job.abortFor] at hj
    split at hj
    · simp [Job.isRunning] at hj
    · exact hj

/-- Records change but for their states, generations and slabs. -/
theorem effect_surfaces (d : Device) (v : Vector Surface 16)
    (h : ∀ i : Slot, v[i].state = (d.surface i).state ∧ v[i].generation = (d.surface i).generation
      ∧ v[i].heldSlabs = (d.surface i).heldSlabs ∧ ((d.surface i).tagged → v[i].tagged)) :
    Effect d { d with surfaces := v } := by
  have hn : ∀ (g : Handle) test, Device.namesState { d with surfaces := v } g test ↔ d.namesState g test := by
    intro g test
    show v[g.slot].generation = g.generation ∧ test v[g.slot].state = true ↔ _
    rw [(h g.slot).1, (h g.slot).2.1]; rfl
  refine ⟨⟨id, id, ?_, ?_, ?_, id, fun ht i => (h i).2.2.2 (ht i)⟩, rfl, rfl, rfl⟩
  · rintro ⟨h1, h2, h3⟩
    refine ⟨fun k => ?_, fun i hi => ?_, h3⟩
    · have : Device.slabCount { d with surfaces := v } k = d.slabCount k := by
        have : ∀ i : Slot, Device.surface { d with surfaces := v } i = v[i] := fun _ => rfl
        simp only [Device.slabCount, this, (h _).2.2.1]
      rw [this]; exact h1 k
    · have hi' : v[i].state = .free := hi
      rw [(h i).1] at hi'
      show v[i].heldSlabs = []
      rw [(h i).2.2.1]; exact h2 i hi'
  · rintro ⟨h1, h2, h3, h4, h5, h6⟩
    exact ⟨h1, h2, h3, h4, fun g hg => (hn g _).2 (h5 g hg), fun g => (h6 g).trans (hn g _).symm⟩
  · rintro ⟨h1, h2⟩
    exact ⟨h1, fun n g hg => (hn g _).2 (h2 n g hg)⟩

theorem effect_setSurface (d : Device) (i : Slot) (r : Surface) (h1 : r.state = (d.surface i).state)
    (h2 : r.generation = (d.surface i).generation) (h3 : r.heldSlabs = (d.surface i).heldSlabs)
    (h4 : (d.surface i).tagged → r.tagged) : Effect d (d.setSurface i r) := by
  apply effect_surfaces
  intro j
  have hm := Device.setSurface_surface d i j r
  change (d.surfaces.set i r)[j] = _ at hm
  rw [hm]
  by_cases h : i = j
  · subst h; simp only [if_true]; exact ⟨h1, h2, h3, h4⟩
  · simp [h]

theorem effect_mapSurfaces (d : Device) (f : Slot → Surface → Surface)
    (h : ∀ i s, (f i s).state = s.state ∧ (f i s).generation = s.generation ∧ (f i s).heldSlabs = s.heldSlabs
      ∧ (Surface.tagged s → (f i s).tagged)) :
    Effect d (d.mapSurfaces f) := by
  apply effect_surfaces
  intro j
  have hm : (Vector.ofFn fun (i : Slot) => f i d.surfaces[i])[j] = f j d.surfaces[j] := by
    show (Vector.ofFn fun (i : Slot) => f i d.surfaces[i])[j.val] = _
    rw [Vector.getElem_ofFn]
  rw [hm]; exact h j _

/-- The completion queue changes within its capacity. -/
theorem effect_completions (d : Device) (l : List CompletionRecord)
    (h : l.length ≤ Config.completionCapacity ∨ l.length ≤ d.control.completions.length) :
    Effect d { d with control := { d.control with completions := l } } := by
  refine ⟨⟨id, ?_, id, id, id, id, id⟩, rfl, rfl, rfl⟩
  rintro ⟨h1, h2, h3, h4, h5, h6⟩
  exact ⟨h1, h2, by show l.length ≤ _; omega, h4, h5, h6⟩

theorem effect_placeRecord (d : Device) (r : CompletionRecord) (h : d.completionRoom = true) :
    Effect d (d.placeRecord r) := by
  apply effect_completions
  left
  have := (completionRoom_iff d).1 h
  simpa using this

theorem namesState_setSurface (d : Device) (i : Slot) (r : Surface) (g : Handle) (test : SlotState → Bool) :
    (d.setSurface i r).namesState g test ↔ if g.slot = i then r.generation = g.generation ∧ test r.state
        = true else d.namesState g test := by
  unfold Device.namesState
  rw [Device.setSurface_surface]
  by_cases h : i = g.slot
  · subst h; simp
  · have : ¬ g.slot = i := fun x => h x.symm
    simp [h, this]

/-- The tags after one record has been replaced. -/
theorem tagLaw_setSurface (d : Device) (i : Slot) (r : Surface) (hd : d.tagLaw) (hr : r.tagged) :
    (d.setSurface i r).tagLaw := by
  intro j
  rw [Device.setSurface_surface]
  split
  · exact hr
  · exact hd j

/-- The record of a FREE slot has tags 0. -/
theorem freed_tagged (g : Byte) : (Surface.freed g).tagged := ⟨Nat.zero_le _, Nat.zero_le _, Nat.zero_le _⟩

theorem effect_release (d : Device) (i : Slot) (hs : (d.surface i).state = .releasing)
    (hr : d.completionRoom = true) : Effect d (d.release i) := by
  have step1 : Effect d (({ d with freeSlabs := returnSlabs (d.surface i).heldSlabs d.freeSlabs }).setSurface i
      (Surface.freed (d.surface i).generation)) := by
    refine ⟨⟨id, id, ?_, ?_, ?_, id, fun h => tagLaw_setSurface _ i _ h (freed_tagged _)⟩, rfl, rfl, rfl⟩
    · intro h
      obtain ⟨n1, n2⟩ := slabLaw_held d h i
      refine ⟨fun k => ?_, fun j hj => ?_, returnSlabs_sorted _ _ h.2.2⟩
      · have := slabCount_set d i (Surface.freed (d.surface i).generation)
          (returnSlabs (d.surface i).heldSlabs d.freeSlabs) k
        rw [count_returnSlabs _ _ _ n1 n2, h.1 k] at this
        have hf : (Surface.freed (d.surface i).generation).heldSlabs.count k = 0 := rfl
        have e : Device.slabCount
            (({ d with freeSlabs := returnSlabs (d.surface i).heldSlabs d.freeSlabs }).setSurface i
              (Surface.freed (d.surface i).generation)) k
          = Device.slabCount
            { d.setSurface i (Surface.freed (d.surface i).generation) with
              freeSlabs := returnSlabs (d.surface i).heldSlabs d.freeSlabs } k := rfl
        rw [e]
        omega
      · rw [Device.setSurface_surface] at hj ⊢
        by_cases hij : i = j
        · simp [hij, Surface.freed, Surface.heldSlabs]
        · simp only [hij, if_false] at hj ⊢
          exact h.2.1 j hj
    · rintro ⟨h1, h2, h3, h4, h5, h6⟩
      refine ⟨h1, h2, h3, h4, fun g hg => ?_, fun g => ?_⟩
      · refine (namesState_setSurface _ i _ g _).2 ?_
        have := h5 g hg
        split
        · rename_i he; subst he; have h7 := this.2; rw [hs] at h7; cases h7
        · exact this
      · refine (h6 g).trans (Iff.trans ?_ (namesState_setSurface _ i _ g _).symm)
        split
        · rename_i he; subst he
          constructor
          · rintro ⟨_, h7⟩; rw [hs] at h7; cases h7
          · rintro ⟨_, h7⟩; cases h7
        · exact Iff.rfl
    · rintro ⟨h1, h2⟩
      refine ⟨h1, fun n g hg => ?_⟩
      refine (namesState_setSurface _ i _ g _).2 ?_
      have := h2 n g hg
      split
      · rename_i he; subst he; have h7 := this.2; rw [hs] at h7; cases h7
      · exact this
  exact step1.trans (effect_placeRecord _ _ hr)

theorem effect_examineRelease (d : Device) (i : Slot) : Effect d (d.examineRelease i) := by
  unfold Device.examineRelease
  refine Effect.ite _ (fun h => ?_) (fun _ => .refl d)
  exact Effect.ite _ (fun hr => effect_release d i h.1 hr) (fun _ => effect_latch d _)

theorem applyBatch_slab (d : Device) (idle : Bool) (h : d.slabLaw) : (d.applyBatch idle).slabLaw := by
  refine slabLaw_of d _ (applyBatch_held d idle) (fun i hi => ?_) (applyBatch_freeSlabs d idle) h
  rw [applyBatch_state] at hi
  split at hi <;> first | assumption | (split at hi <;> cases hi) | cases hi

theorem applyBatch_editable (d : Device) (idle : Bool) (g : Handle) (h : d.namesState g SlotState.editable) :
    (d.applyBatch idle).namesState g SlotState.editable := by
  obtain ⟨g1, g2⟩ := h
  refine ⟨(applyBatch_generation d idle _).trans g1, ?_⟩
  rw [applyBatch_state]
  split <;> rename_i hs <;> rw [hs] at g2 <;> first | (split <;> rfl) | cases g2

theorem applyBatch_order (d : Device) (idle : Bool) (h : d.orderLaw) : (d.applyBatch idle).orderLaw := by
  obtain ⟨h1, h2, h3, h4, h5, h6⟩ := h
  have mem_iff : ∀ g : Handle, (d.surface g.slot).generation = g.generation →
      (d.staging.order.contains ⟨g.slot, (d.surface g.slot).generation⟩ = true ↔ g ∈ d.staging.order) := by
    intro g hg
    rw [List.contains_iff_mem, hg]
  unfold Device.orderLaw
  rw [applyBatch_pending, applyBatch_committed]
  refine ⟨h1, h2, h1, h2, fun g hg => applyBatch_editable d idle g (h5 g hg), fun g => ⟨fun hg => ?_, ?_⟩⟩
  · obtain ⟨g1, g2⟩ := h5 g hg
    refine ⟨(applyBatch_generation d idle _).trans g1, ?_⟩
    rw [applyBatch_state]
    split <;> rename_i hs <;> rw [hs] at g2 <;> first | (rw [if_pos ((mem_iff g g1).2 hg)]; rfl) | cases g2
  · rintro ⟨g1, g2⟩
    rw [applyBatch_generation] at g1
    rw [applyBatch_state] at g2
    rw [← mem_iff g g1]
    by_contra hc
    rw [Bool.not_eq_true] at hc
    rw [hc] at g2
    split at g2 <;> cases g2

/-- A batch apply takes each committed tag from a pending one. -/
theorem applied_tagged (p : Bool) (s : Surface) (h : s.tagged) : (s.applied p).tagged := by
  obtain ⟨h1, h2, h3⟩ := h
  unfold Surface.applied
  split
  · exact ⟨h1, h3, h3⟩
  · exact ⟨h1, h3, h3⟩
  · exact ⟨h1, h2, h3⟩
  · exact ⟨h1, h2, h3⟩
  · exact ⟨h1, h2, h3⟩

theorem applyBatch_tag (d : Device) (idle : Bool) (h : d.tagLaw) : (d.applyBatch idle).tagLaw := by
  intro i
  rw [applyBatch_surface]
  exact applied_tagged _ _ (h i)

theorem effect_applyBatch (d : Device) (idle : Bool) (hr : d.completionRoom = true) : Effect d (d.applyBatch idle) :=
    by
  refine ⟨⟨?_, ?_, applyBatch_slab d idle, applyBatch_order d idle, ?_, ?_,
    applyBatch_tag d idle⟩, ?_, ?_, applyBatch_reading d idle⟩
  · unfold Device.storeLaw; rw [applyBatch_store]; exact id
  · unfold Device.queueLaw Device.heldWords
    rw [applyBatch_control, applyBatch_engine, applyBatch_reading]
    rintro ⟨h1, h2, h3, h4, h5, h6⟩
    have := (completionRoom_iff d).1 hr
    exact ⟨h1, h2, by simpa using this, h4, h5, h6⟩
  · unfold Device.bindingLaw
    simp only [applyBatch_port]
    exact fun h => ⟨h.1, fun n g hg => applyBatch_editable d idle g (h.2 n g hg)⟩
  · unfold Device.intervalLaw
    simp only [applyBatch_port, applyBatch_timeBase]
    exact id
  · rw [applyBatch_control]
  · rw [applyBatch_control]

theorem effect_offerBatch (d : Device) (idle : Bool) : Effect d (d.offerBatch idle) := by
  unfold Device.offerBatch
  refine Effect.ite _ (fun h => ?_) (fun _ => Effect.ite _ (fun _ => effect_latch d _) (fun _ => .refl d))
  apply effect_applyBatch
  simp only [Device.takesBatch, Bool.and_eq_true] at h
  exact h.2

theorem effect_flipSlot (d : Device) (idle : Bool) (i : Slot) (hr : d.completionRoom = true) :
    Effect d (d.flipSlot idle i) := by
  unfold Device.flipSlot
  refine Effect.trans ?_ (effect_examineStall _ _)
  refine Effect.trans (e := d.setSurface i _) (effect_setSurface d i _ ?_ ?_ ?_ ?_) (effect_placeRecord _ _ ?_)
  · rfl
  · rfl
  · rfl
  · exact fun h => ⟨h.2.1, h.2.1, h.2.2⟩
  · exact hr

theorem effect_examineFlip (d : Device) (idle : Bool) (i : Slot) : Effect d (d.examineFlip idle i) := by
  unfold Device.examineFlip
  refine Effect.ite _ (fun _ => ?_) (fun _ => .refl d)
  exact Effect.ite _ (fun hr => effect_flipSlot d idle i hr) (fun _ => effect_latch d _)

theorem effect_applyPoint (d : Device) (idle : Bool) : Effect d (d.applyPoint idle) :=
  (effect_offerBatch d idle).trans
      ((Effect.foldl _ effect_examineRelease _ _).trans (Effect.foldl _ (fun e i => effect_examineFlip e idle i) _ _))

theorem effect_offerIdle (d : Device) : Effect d d.offerIdle :=
  Effect.ite _ (fun _ => effect_applyPoint d true) (fun _ => .refl d)

theorem effect_placeJobEnd (d : Device) (j : Job) (hr : d.completionRoom = true) : Effect d (d.placeJobEnd j) := by
  refine Effect.trans
    (effect_engine d { d.engine with jobs := d.engine.jobs.eraseP fun k => k.id == j.id && k.isEnded }
      (Or.inr ?_) (Or.inr ?_))
    (effect_completions _ _ (Or.inl ?_))
  · exact List.Sublist.length_le List.eraseP_sublist
  · exact List.Sublist.countP_le List.eraseP_sublist
  · have := (completionRoom_iff d).1 hr
    simpa using this

theorem effect_offerJobEnd (d : Device) (id : Byte) : Effect d (d.offerJobEnd id) := by
  unfold Device.offerJobEnd
  split
  · exact .refl d
  · refine Effect.ite _ (fun hr => ?_) (fun _ => effect_latch d _)
    exact (effect_placeJobEnd d _ hr).trans
        ((effect_examineStall _ _).trans ((effect_examineRelease _ _).trans (effect_offerIdle _)))

theorem effect_offerRoom (d : Device) : Effect d d.offerRoom :=
  (Effect.foldl _ effect_offerJobEnd _ _).trans
      ((Effect.foldl _ effect_examineRelease _ _).trans (effect_offerIdle _))

theorem effect_deliverPost (d : Device) (i : Slot) : Effect d (d.deliverPost i) := by
  unfold Device.deliverPost
  refine Effect.trans (effect_setSurface d i _ ?_ ?_ ?_ ?_) (effect_offerIdle _) <;> first | rfl | exact id

theorem effect_staging (d : Device) (s : StagingSet) (h : s.order = d.staging.order) :
    Effect d { d with staging := s } := by
  refine ⟨⟨id, id, id, ?_, id, id, id⟩, rfl, rfl, rfl⟩
  rintro ⟨h1, h2, h3, h4, h5, h6⟩
  exact ⟨by rw [show Device.staging { d with staging := s } = s from rfl, h]; exact h1,
    by rw [show Device.staging { d with staging := s } = s from rfl, h]; exact h2, h3, h4,
    by rw [show Device.staging { d with staging := s } = s from rfl, h]; exact h5, h6⟩

theorem effect_scan (d : Device) (s : ScanEngine) : Effect d { d with scan := s } :=
    ⟨⟨id, id, id, id, id, id, id⟩, rfl, rfl, rfl⟩

/-- Handles leave the pending order. -/
theorem effect_pendingSublist (d : Device) (s : StagingSet) (h : s.order.Sublist d.staging.order) :
    Effect d { d with staging := s } := by
  refine ⟨⟨id, id, id, ?_, id, id, id⟩, rfl, rfl, rfl⟩
  rintro ⟨h1, h2, h3, h4, h5, h6⟩
  exact ⟨h1.sublist h, h.length_le.trans h2, h3, h4, fun g hg => h5 g (h.subset hg), h6⟩

theorem effect_dropFromPending (d : Device) (h : Handle) : Effect d (d.dropFromPending h) :=
  effect_pendingSublist d _ List.erase_sublist

theorem effect_closeWithdraw (d : Device) (h : Handle) : Effect d (d.closeWithdraw h) := by
  unfold Device.closeWithdraw
  have h1 : Effect d (match d.boundPort h with
    | some n => d.abandonPort n
    | none => d) := by
    split
    · exact effect_abandonPort d _
    · exact .refl d
  refine h1.trans ((effect_abortJobs _ h).trans (effect_setSurface _ _ _ ?_ ?_ ?_ ?_)) <;> first | rfl | exact id

theorem discardBatch_editable (d : Device) (g : Handle) (test : SlotState → Bool)
    (h : ∀ s, test s = true → s = .dormant ∨ s = .live ∨ s = .closing) (hn : d.namesState g test) :
    d.discardBatch.namesState g SlotState.editable := by
  obtain ⟨g1, g2⟩ := hn
  unfold Device.namesState
  rw [discardBatch_surface, (discarded_facts _).1, (discarded_facts _).2.2]
  refine ⟨g1, ?_⟩
  rcases h _ g2 with h | h | h <;> rw [h] <;> rfl

theorem discardBatch_order (d : Device) (hd : d.orderLaw) : d.discardBatch.orderLaw := by
  obtain ⟨_, _, h3, h4, _, h6⟩ := hd
  unfold Device.orderLaw
  rw [discardBatch_pending, discardBatch_layers]
  refine ⟨h3, h4, h3, h4, fun g hg => discardBatch_editable d g _ ?_ ((h6 g).1 hg), fun g => (h6 g).trans ?_⟩
  · intro s hs
    cases s <;> simp at hs ⊢
  · unfold Device.namesState
    rw [discardBatch_surface, (discarded_facts _).1, (discarded_facts _).2.2]
    cases h : (d.surface g.slot).state <;> simp

/-- DISCARD takes each pending tag from a committed one. -/
theorem discarded_tagged (s : Surface) (h : s.tagged) : s.discarded.tagged := by
  obtain ⟨h1, h2, h3⟩ := h
  unfold Surface.discarded
  split
  · exact ⟨h1, h2, h2⟩
  · exact ⟨h1, h2, h2⟩
  · exact ⟨h1, h2, h2⟩
  · exact ⟨h1, h2, h3⟩
  · exact ⟨h1, h2, h3⟩

theorem effect_discardBatch (d : Device) : Effect d d.discardBatch := by
  refine ⟨⟨?_, ?_, ?_, discardBatch_order d, ?_, ?_,
    fun h i => by rw [discardBatch_surface]; exact discarded_tagged _ (h i)⟩, ?_, ?_, discardBatch_reading d⟩
  · unfold Device.storeLaw; rw [discardBatch_store]; exact id
  · unfold Device.queueLaw Device.heldWords
    rw [discardBatch_control, discardBatch_engine, discardBatch_reading]; exact id
  · refine slabLaw_of d _ (fun i => ?_) (fun i hi => ?_) (discardBatch_freeSlabs d)
    · rw [discardBatch_surface, (discarded_facts _).2.1]
    · rw [discardBatch_surface, (discarded_facts _).2.2] at hi
      cases h : (d.surface i).state <;> rw [h] at hi <;> first | rfl | cases hi
  · unfold Device.bindingLaw
    simp only [discardBatch_port]
    refine fun h => ⟨h.1, fun n g hg => discardBatch_editable d g _ ?_ (h.2 n g hg)⟩
    intro s hs
    cases s <;> simp [SlotState.editable] at hs ⊢
  · unfold Device.intervalLaw
    simp only [discardBatch_port, discardBatch_timeBase]; exact id
  · rw [discardBatch_control]
  · rw [discardBatch_control]

theorem handleRefusal_none (d : Device) (h : Handle) (hn : d.handleRefusal h = none) :
    d.namesState h SlotState.editable := by
  unfold Device.handleRefusal at hn
  split at hn
  · rename_i hv
    split at hn
    · cases hn
    · rename_i hc
      simp only [Device.validHandle, Bool.and_eq_true, beq_iff_eq] at hv
      refine ⟨hv.2, ?_⟩
      have := hv.1
      cases hs : (d.surface h.slot).state <;> rw [hs] at this hc <;> first | exact absurd rfl hc | rfl | cases this
  · cases hn

theorem effect_place (d : Device) (h a : Handle) (p : Placement) (hn : d.namesState h SlotState.editable)
    (hroom : ¬ (h ∉ d.staging.order ∧ Config.orderCapacity ≤ d.staging.order.length)) :
    Effect d (d.setPending (placed d.staging.order h p a)) := by
  refine ⟨⟨id, id, id, ?_, id, id, id⟩, rfl, rfl, rfl⟩
  rintro ⟨h1, h2, h3, h4, h5, h6⟩
  have hp := placed_perm d.staging.order h a p
  refine ⟨?_, ?_, h3, h4, ?_, h6⟩
  · show (placed d.staging.order h p a).Nodup
    rw [hp.nodup_iff, List.nodup_cons]
    exact ⟨fun hx => (List.Nodup.mem_erase_iff h1).1 hx |>.1 rfl, h1.erase _⟩
  · show (placed d.staging.order h p a).length ≤ _
    rw [hp.length_eq, List.length_cons]
    by_cases hm : h ∈ d.staging.order
    · rw [List.length_erase_of_mem hm]
      have : 0 < d.staging.order.length := List.length_pos_of_mem hm
      omega
    · rw [List.erase_of_not_mem hm]
      have : ¬ Config.orderCapacity ≤ d.staging.order.length := fun hx => hroom ⟨hm, hx⟩
      omega
  · intro g hg
    have hg' : g ∈ placed d.staging.order h p a := hg
    rw [hp.mem_iff, List.mem_cons] at hg'
    rcases hg' with rfl | hg'
    · exact hn
    · exact h5 g (List.mem_of_mem_erase hg')

theorem opened_held (old : Surface) (mode : OpenMode) (look : Look) (sw sh x y n : Nat) (l : List Slab) :
    (old.opened mode look sw sh x y (l.take (slabsWanted mode.buffering n)) n).heldSlabs
        = l.take (slabsWanted mode.buffering n) := by
  unfold Surface.opened Surface.heldSlabs
  cases h : mode.buffering
  · simp [slabsWanted]
  · simp [List.take_append_drop]

theorem effect_takeSlot (d : Device) (i : Slot) (mode : OpenMode) (look : Look) (sw sh x y : Nat)
    (hf : (d.surface i).state = .free) (ht : look.tag ≤ 63) :
    Effect d (d.takeSlot i mode look sw sh x y) := by
  have hst : ∀ g : Handle, ∀ test, test SlotState.free = false → d.namesState g test → g.slot ≠ i := by
    rintro g test ht ⟨_, h2⟩ rfl
    rw [hf, ht] at h2; cases h2
  have keep : ∀ g test, test SlotState.free = false → d.namesState g test →
      (d.takeSlot i mode look sw sh x y).namesState g test := by
    intro g test ht hn
    refine (namesState_setSurface _ i _ g test).2 ?_
    rw [if_neg (hst g test ht hn)]; exact hn
  refine ⟨⟨id, id, ?_, ?_, ?_, id, fun h => tagLaw_setSurface _ i _ h ⟨Nat.zero_le _, ht, ht⟩⟩, rfl, rfl, rfl⟩
  · intro h
    have hnil := h.2.1 i hf
    refine ⟨fun k => ?_, fun j hj => ?_, ?_⟩
    · have := slabCount_set d i (Surface.opened (d.surface i) mode look sw sh x y
        (d.freeSlabs.take (slabsWanted mode.buffering (slabsFor sw sh))) (slabsFor sw sh))
        (d.freeSlabs.drop (slabsWanted mode.buffering (slabsFor sw sh))) k
      rw [opened_held, hnil, h.1 k] at this
      have hsplit : d.freeSlabs.count k = (d.freeSlabs.take (slabsWanted mode.buffering (slabsFor sw sh))).count k +
          (d.freeSlabs.drop (slabsWanted mode.buffering (slabsFor sw sh))).count k := by
        rw [← List.count_append, List.take_append_drop]
      change (d.takeSlot i mode look sw sh x y).slabCount k + _ + _ = _ at this
      simp only [List.count_nil] at this
      omega
    · rcases eq_or_ne i j with rfl | hij
      · have : ((d.takeSlot i mode look sw sh x y).surface i).state = .dormant := by
          unfold Device.takeSlot; rw [Device.setSurface_surface]; simp [Surface.opened]
        rw [this] at hj; cases hj
      · have e : (d.takeSlot i mode look sw sh x y).surface j = d.surface j := by
          unfold Device.takeSlot; rw [Device.setSurface_surface]; simp [hij]; rfl
        rw [e] at hj ⊢; exact h.2.1 j hj
    · exact h.2.2.sublist (List.drop_sublist _ _)
  · rintro ⟨h1, h2, h3, h4, h5, h6⟩
    refine ⟨h1, h2, h3, h4, fun g hg => keep g _ rfl (h5 g hg), fun g => (h6 g).trans ?_⟩
    constructor
    · exact keep g _ rfl
    · intro hn
      have := (namesState_setSurface _ i _ g _).1 hn
      split at this
      · have h7 := this.2; cases h7
      · exact this
  · rintro ⟨h1, h2⟩
    exact ⟨h1, fun n g hg => keep g _ rfl (h2 n g hg)⟩

theorem effect_openingFills (d : Device) (i : Slot) (c : Pixel)
    (h : d.engine.jobs.length + (match (d.surface i).buffering
        with | .single => 1 | .double => 2) ≤ Config.jobCapacity) : Effect d (d.openingFills i c) := by
  unfold Device.openingFills
  cases hb : (d.surface i).buffering
  · rw [hb] at h; exact effect_admitJob _ _ _ _ _ h
  · rw [hb] at h
    refine (effect_admitJob _ _ _ _ _ ?_).trans (effect_admitJob _ _ _ _ _ ?_)
    · simp only [] at h; omega
    · rw [admitJob_length]; simp only [] at h; omega

/-- A slot enters CLOSING or RELEASING once its surface is in no pending order and on no port. -/
theorem effect_closeSlot (d c : Device) (h : Handle) (st : SlotState) (he : Effect d c)
    (hn : d.namesState h SlotState.editable)
    (hc1 : ∀ i, (c.surface i).state = (d.surface i).state ∧ (c.surface i).generation = (d.surface i).generation)
    (hc2 : c.staging.order = d.staging.order.erase h) (hc3 : c.layers = d.layers)
    (hc4 : d.bindingLaw → ∀ n, (c.port n).binding ≠ some h)
    (hst : ((d.surface h.slot).state = .live ∧ st = .closing)
        ∨ ((d.surface h.slot).state = .dormant ∧ st = .releasing)) :
    Effect d (c.setSlotState h.slot st) := by
  have hf : st ≠ .free := by rcases hst with ⟨_, rfl⟩ | ⟨_, rfl⟩ <;> simp
  have uniq : ∀ g test, d.namesState g test → g.slot = h.slot → g = h := by
    rintro ⟨gs, gg⟩ test ⟨h1, _⟩ h2
    obtain ⟨hs, hg⟩ := h
    simp only at h2; subst h2
    have := hn.1
    simp only at h1 this
    rw [← h1, ← this]
  have names : ∀ g test, (c.setSlotState h.slot st).namesState g test ↔ if g.slot = h.slot then
      (d.surface h.slot).generation = g.generation ∧ test st = true else d.namesState g test := by
    intro g test
    unfold Device.setSlotState
    rw [namesState_setSurface]
    split
    · simp only [(hc1 _).2]
    · unfold Device.namesState; rw [(hc1 _).1, (hc1 _).2]
  refine ⟨⟨he.store, he.queue, ?_, ?_, ?_, he.interval,
    fun h' => tagLaw_setSurface c _ _ (he.tag h') (he.tag h' h.slot)⟩, he.commands, he.responses, he.reading⟩
  · intro hd
    refine slabLaw_of c _ (fun i => ?_) (fun i hi => ?_) rfl (he.slab hd)
    · unfold Device.setSlotState; rw [Device.setSurface_surface]
      split
      · rename_i hx; subst hx; rfl
      · rfl
    · unfold Device.setSlotState at hi; rw [Device.setSurface_surface] at hi
      split at hi
      · exact absurd hi hf
      · exact hi
  · intro hd
    obtain ⟨k1, k2, k3, k4, k5, k6⟩ := he.order hd
    obtain ⟨h1, h2, h3, h4, h5, h6⟩ := hd
    refine ⟨k1, k2, k3, k4, fun g hg => ?_, fun g => ?_⟩
    · have hg' : g ∈ c.staging.order := hg
      rw [hc2, List.Nodup.mem_erase_iff h1] at hg'
      rw [names]
      have := h5 g hg'.2
      rw [if_neg]
      · exact this
      · intro hx; exact hg'.1 (uniq g _ this hx)
    · rw [names]
      show g ∈ c.layers.order ↔ _
      rw [hc3, h6 g]
      split
      · rename_i hx
        constructor
        · intro hd
          have := uniq g _ hd hx; subst this
          refine ⟨hd.1, ?_⟩
          rcases hst with ⟨h7, rfl⟩ | ⟨h7, rfl⟩
          · rfl
          · have h8 := hd.2; rw [h7] at h8; cases h8
        · rintro ⟨h8, h9⟩
          refine ⟨by rw [hx]; exact h8, ?_⟩
          rw [hx]
          rcases hst with ⟨h7, rfl⟩ | ⟨h7, rfl⟩
          · rw [h7]; rfl
          · cases h9
      · exact Iff.rfl
  · intro hd
    obtain ⟨k1, k2⟩ := he.binding hd
    refine ⟨k1, fun n g hg => ?_⟩
    have hg' : (c.port n).binding = some g := hg
    have := k2 n g hg'
    have hd' : d.namesState g SlotState.editable := by
      unfold Device.namesState at this ⊢; rw [(hc1 _).1, (hc1 _).2] at this; exact this
    rw [names, if_neg]
    · exact hd'
    · intro hx
      have := uniq g _ hd' hx; subst this
      exact hc4 hd n hg'

theorem closeWithdraw_facts (d : Device) (h : Handle) :
    (∀ i, ((d.closeWithdraw h).surface i).state = (d.surface i).state ∧ ((d.closeWithdraw h).surface i).generation
        = (d.surface i).generation)
    ∧ (d.closeWithdraw h).staging = d.staging ∧ (d.closeWithdraw h).layers = d.layers
    ∧ (d.bindingLaw → ∀ n, ((d.closeWithdraw h).port n).binding ≠ some h) := by
  have ⟨f, hf, hfp, hfs⟩ : ∃ f : Device, (match d.boundPort h with
    | some n => d.abandonPort n
    | none => d) = f ∧ (d.bindingLaw → ∀ m, (f.port m).binding ≠ some h) 
      ∧ ∃ store rotation freeIndex ports events, f
          = { d with store := store, rotation := rotation, freeIndex := freeIndex, ports := ports, events := events } := by
    cases hb : d.boundPort h with
    | none => exact ⟨d, rfl, fun _ m => boundPort_none hb m, ⟨_, _, _, _, _, rfl⟩⟩
    | some n =>
      obtain ⟨a, b, c, e, f, hfr, _⟩ := abandonPort_frame d n
      refine ⟨_, rfl, ?_, ⟨a, b, c, e, f, hfr⟩⟩
      intro hlaw m
      by_cases hm : m = n
      · subst hm; rw [abandonPort_self]; simp
      · rw [abandonPort_other d n m hm]
        intro hx; exact hm (hlaw.1 m n h hx (boundPort_some hb))
  obtain ⟨st, ro, fi, po, ev, hfe⟩ := hfs
  obtain ⟨eng, heng⟩ := startJob_frame { f with
      engine := { f.engine with
        jobs := f.engine.jobs.map (Job.abortFor h)
        request := if f.engine.jobs.any fun j => j.isRunning && j.handle == h then none else f.engine.request } }
  have hab : f.abortJobs h = { f with engine := eng } := by
    unfold Device.abortJobs; simp only [heng]
  have he' : d.closeWithdraw h
      = (f.abortJobs h).setSurface h.slot { (f.abortJobs h).surface h.slot with flip := .none } := by
    rw [← hf]; rfl
  rw [he', hab]
  refine ⟨fun i => ?_, by rw [hfe]; rfl, by rw [hfe]; rfl, fun hl n => hfp hl n⟩
  rw [Device.setSurface_surface]
  have : ∀ i, Device.surface { f with engine := eng } i = d.surface i := by intro i; rw [hfe]; rfl
  split
  · rename_i hx; subst hx; simp [this]
  · simp [this]

theorem effect_closeBase (d : Device) (h : Handle) (st : SlotState) (hn : d.namesState h SlotState.editable)
    (hst : ((d.surface h.slot).state = .live ∧ st = .closing)
        ∨ ((d.surface h.slot).state = .dormant ∧ st = .releasing)) :
    Effect d (((d.dropFromPending h).closeWithdraw h).setSlotState h.slot st) := by
  obtain ⟨h1, h2, h3, h4⟩ := closeWithdraw_facts (d.dropFromPending h) h
  exact effect_closeSlot d _ h st ((effect_dropFromPending d h).trans (effect_closeWithdraw _ h)) hn h1
      (by rw [h2]; rfl) (by rw [h3]; rfl) (fun hl => h4 hl) hst

theorem effect_freeSlot (d : Device) (i : Slot) (h : d.freeSlot = some i) : (d.surface i).state = .free := by
  have := List.find?_some h; simpa using this

/-- A look has a tag of six bits. -/
theorem decodeLook_tag (w : Word) (l : Look) (h : decodeLook w = some l) : l.tag ≤ 63 := by
  unfold decodeLook at h
  split at h
  · cases h
    have : fieldOf w 8 6 < 2 ^ 6 := (w.extractLsb' 8 6).isLt
    show fieldOf w 8 6 ≤ 63
    omega
  · cases h

theorem openPlaces (d : Device) (mode : OpenMode) (mw sw sh x y lw c : Word) (hm : decodeMode mw = some mode)
    (hf : mode.fill = true)
    (h : d.classReady (classOf .openSurface [mw, sw, sh, x, y, lw, c]) = true) :
    d.engine.jobs.length + (match mode.buffering with | .single => 1 | .double => 2) ≤ Config.jobCapacity := by
  unfold decodeMode at hm
  split at hm
  · rename_i hz
    simp only [Option.some.injEq] at hm
    subst hm
    simp only at hf
    have hz' : mw.getLsbD 1 = false := by
      have := congrArg (fun w => w.getLsbD 1) hz
      simpa using this
    have h2 : fieldOf mw 0 2 = (mw.getLsbD 0).toNat := by
      simp only [fieldOf]
      have : mw.extractLsb' 0 2 = BitVec.ofNat 2 (mw.getLsbD 0).toNat := by
        apply BitVec.eq_of_getLsbD_eq
        intro k hk2
        rw [BitVec.getLsbD_extractLsb', BitVec.getLsbD_ofNat]
        interval_cases k
        · cases h0 : mw.getLsbD 0 <;> rfl
        · rw [show 0 + 1 = 1 from rfl, hz']
          cases h0 : mw.getLsbD 0 <;> rfl
      rw [this]
      cases mw.getLsbD 0 <;> rfl
    simp only [classOf, List.length_cons, List.length_nil, hf, and_self, if_true, h2] at h
    cases h0 : mw.getLsbD 0
    · simp only [h0] at h; simpa [Device.classReady] using h
    · simp only [h0] at h; simpa [Device.classReady] using h
  · cases hm

theorem classReady_job (d : Device) (n : Nat) (h : d.classReady (.job n) = true) :
    d.engine.jobs.length + n ≤ Config.jobCapacity := by
  simpa [Device.classReady] using h

theorem effect_open (d : Device) (ps : List Word) (h : ps.length = 7 → d.classReady (classOf .openSurface ps)
    = true) : Effect d (openAtHead ps d).1 := by
  unfold openAtHead
  split
  · rename_i mw sw sh x y lw c
    split
    · rename_i mode look hm hl
      split
      · split
        · exact .refl d
        · rename_i i hi
          split
          · exact .refl d
          · have h1 := effect_takeSlot d i mode look sw.toNat sh.toNat x.toNat y.toNat (effect_freeSlot d i hi)
              (decodeLook_tag _ _ hl)
            simp only
            split
            · rename_i hf
              refine h1.trans (effect_openingFills _ i c ?_)
              have e : ((d.takeSlot i mode look sw.toNat sh.toNat x.toNat y.toNat).surface i).buffering
                  = mode.buffering := by
                unfold Device.takeSlot; rw [Device.setSurface_surface]; simp [Surface.opened]
              rw [e]; exact openPlaces d mode mw sw sh x y lw c hm hf (h rfl)
            · exact h1
      · exact .refl d
    · exact .refl d
  · exact .refl d

theorem effect_close (d : Device) (ps : List Word) : Effect d (closeAtHead ps d).1 := by
  unfold closeAtHead
  split
  · split
    · exact .refl d
    · rename_i hn
      have hn' := handleRefusal_none d _ hn
      split
      · rename_i hl
        refine (effect_closeBase d _ .closing hn' (Or.inl ⟨hl, rfl⟩)).trans
            (Effect.trans ?_ (Effect.foldl _ effect_offerJobEnd _ _))
        exact effect_staging _ _ rfl
      · rename_i hl
        have : (d.surface (handleOf ‹_›).slot).state = .dormant := by
          have h2 := hn'.2
          cases hs : (d.surface (handleOf ‹_›).slot).state <;> rw [hs] at h2 hl <;>
            first | rfl | exact absurd rfl hl | cases h2
        exact (effect_closeBase d _ .releasing hn' (Or.inr ⟨this, rfl⟩)).trans
            ((Effect.foldl _ effect_offerJobEnd _ _).trans (effect_examineRelease _ _))
  · exact .refl d

theorem effect_editPending (d : Device) (i : Slot) (a : Appearance) (ha : (d.surface i).tagged → a.tag ≤ 63) :
    Effect d (d.editPending i a) := by
  unfold Device.editPending Device.markDirty
  refine Effect.trans (effect_setSurface d i _ ?_ ?_ ?_ ?_) (effect_staging _ _ ?_)
  · rfl
  · rfl
  · rfl
  · exact fun h => ⟨h.1, h.2.1, ha h⟩
  · rfl

theorem kept_clearScene (d : Device) (hb : ∀ n, (d.port n).binding = none) : Effect d d.clearScene := by
  have hs := Device.clearScene_surface d
  have p2 := Device.clearScene_control d
  have p3 : d.clearScene.engine.jobs = [] := by rw [Device.clearScene_engine]
  have p4 := Device.clearScene_pixelRead d
  have p5 : d.clearScene.freeSlabs = List.finRange 256 := by rw [Device.clearScene_freeSlabs]; simp only [allSlabs]
  have p6 : d.clearScene.staging.order = [] := by rw [Device.clearScene_staging]
  have p7 : d.clearScene.layers.order = [] := by rw [Device.clearScene_layers]
  have p8 := Device.clearScene_port d
  refine ⟨⟨?_, ?_, ?_, ?_, ?_, ?_, fun _ i => by rw [hs]; exact freed_tagged _⟩, by rw [p2], by rw [p2], p4⟩
  · unfold Device.storeLaw; rw [Device.clearScene_store]; exact id
  · unfold Device.queueLaw Device.heldWords; rw [p2, p3, p4]
    rintro ⟨h1, h2, h3, h4, h5, h6⟩
    exact ⟨h1, h2, by simp, by simp, by simp, h6⟩
  · intro _
    refine ⟨fun k => ?_, fun i _ => ?_, ?_⟩
    · unfold Device.slabCount
      simp only [hs, p5]
      have h2 : ((allSlots.map fun i => (Surface.freed (d.surface i).generation).heldSlabs.count k)).sum = 0 := by
        simp [Surface.freed, Surface.heldSlabs]
      rw [h2, List.count_eq_one_of_mem (List.nodup_finRange 256) (List.mem_finRange k)]
    · rw [hs]; rfl
    · rw [p5]; exact List.pairwise_lt_finRange 256
  · intro _
    unfold Device.orderLaw
    rw [p6, p7]
    refine ⟨by simp, by simp, by simp, by simp, by simp, fun g => ?_⟩
    unfold Device.namesState
    rw [hs]; simp [Surface.freed]
  · intro _
    refine ⟨fun m n g hm => ?_, fun n g hg => ?_⟩
    · rw [p8, hb] at hm; cases hm
    · rw [p8, hb] at hg; cases hg
  · unfold Device.intervalLaw; simp only [p8, Device.clearScene_timeBase]; exact id

theorem effect_sceneReset (d : Device) : Effect d d.sceneReset := by
  unfold Device.sceneReset
  refine Effect.trans ((effect_grantFirst d _).trans (Effect.foldl _ effect_leavePort _ _)) (kept_clearScene _ ?_)
  intro n
  show (d.abandonAll.port n).binding = none
  rw [abandonAll_port, leavePort_port, if_pos rfl]
  split <;> rfl

theorem effect_bind (d : Device) (n : PortNum) (h : Handle) (hn : d.namesState h SlotState.editable)
    (hb : ((d.boundPort h).any fun m => m != n) = false) :
    Effect d (d.setPort n { d.port n with binding := some h }) := by
  have hp : ∀ m, (d.setPort n { d.port n with binding := some h }).port m = if m
      = n then { d.port n with binding := some h } else d.port m := fun m => port_setPort d n m _
  refine ⟨⟨id, id, id, id, ?_, ?_, id⟩, rfl, rfl, rfl⟩
  · rintro ⟨h1, h2⟩
    have other : ∀ m, (d.port m).binding = some h → m = n := by
      intro m hm
      cases hq : d.boundPort h with
      | none => exact absurd hm (boundPort_none hq m)
      | some k =>
        rw [hq] at hb
        have : k = n := by simpa using hb
        subst this
        exact h1 m k h hm (boundPort_some hq)
    refine ⟨fun m k g hm hk => ?_, fun m g hg => ?_⟩
    · rw [hp] at hm hk
      split at hm <;> split at hk
      · rename_i e1 e2; rw [e1, e2]
      · rename_i e1 e2
        simp only [Option.some.injEq] at hm; subst hm
        rw [e1]; exact (other k hk).symm
      · rename_i e1 e2
        simp only [Option.some.injEq] at hk; subst hk
        rw [e2]; exact other m hm
      · exact h1 m k g hm hk
    · rw [hp] at hg
      split at hg
      · simp only [Option.some.injEq] at hg; subst hg; exact hn
      · exact h2 m g hg
  · intro hi m i hm
    rw [hp] at hm
    split at hm
    · rename_i e; exact hi n i hm
    · exact hi m i hm

/-- Every command but PIXEL_READ makes such a change, and is answered. -/
theorem effect_runCommand (c : Command) (ps : List Word) (d : Device)
    (hc : ps.length + 1 = commandLength c → d.classReady (classOf c ps) = true) (hp : c ≠ .pixelRead) :
    Effect d (runCommand c ps d).1 ∧ (runCommand c ps d).2.isSome = true := by
  cases c <;> simp only [runCommand, Option.isSome_some, and_true]
  case openSurface => exact effect_open d ps (fun h => hc (by rw [h]; rfl))
  case closeSurface => exact effect_close d ps
  case pixelRead => exact absurd rfl hp
  case querySurface => unfold querySurfaceAtHead; split <;> (try split) <;> exact .refl d
  case queryPool => unfold queryPoolAtHead; split <;> exact .refl d
  case setPosition =>
    unfold setPositionAtHead; split
    · split
      · exact .refl d
      · split
        · exact effect_editPending d _ _ fun h => h.2.2
        · exact .refl d
    · exact .refl d
  case setLook =>
    unfold setLookAtHead; split
    · split
      · exact .refl d
      · split
        · rename_i hl; exact effect_editPending d _ _ fun _ => decodeLook_tag _ _ hl
        · exact .refl d
    · exact .refl d
  case setBackground => unfold setBackgroundAtHead; split <;> [exact effect_staging d _ rfl; exact .refl d]
  case commit =>
    unfold commitAtHead; split
    · split
      · refine Effect.trans (effect_staging d _ ?_) (effect_offerIdle _)
        rfl
      · exact .refl d
    · exact .refl d
  case discard => unfold discardAtHead; split <;> [exact effect_discardBatch d; exact .refl d]
  case queryStaging => unfold queryStagingAtHead; split <;> exact .refl d
  case place =>
    unfold placeAtHead; split
    · simp only
      split
      · exact .refl d
      · rename_i hn
        split
        · exact .refl d
        · split
          · exact .refl d
          · split
            · exact .refl d
            · rename_i hroom; exact effect_place d _ _ _ (handleRefusal_none d _ hn) hroom
    · exact .refl d
  case unplace =>
    unfold unplaceAtHead; split
    · split
      · exact .refl d
      · split
        · exact effect_pendingSublist d _ List.erase_sublist
        · exact .refl d
    · exact .refl d
  case queryOrder => unfold queryOrderAtHead; split <;> exact .refl d
  case panelSetup =>
    unfold panelSetupAtHead; split
    · split
      · split
        · exact effect_scan d _
        · exact .refl d
      · exact .refl d
    · exact .refl d
  case panelStart =>
    unfold panelStartAtHead; split
    · split
      · split
        · exact effect_scan d _
        · exact .refl d
      · exact effect_scan d _
      · exact .refl d
    · exact .refl d
  case panelStop =>
    unfold panelStopAtHead; split
    · split
      · exact effect_scan d _
      · exact .refl d
      · exact .refl d
    · exact .refl d
  case queryPanel => unfold queryPanelAtHead; split <;> exact .refl d
  case post =>
    unfold postAtHead; split
    · simp only
      split
      · exact .refl d
      · split
        · exact .refl d
        · split
          · exact .refl d
          · split
            · exact effect_deliverPost d _
            · exact .refl d
    · exact .refl d
  case bind =>
    unfold bindAtHead; split
    · simp only
      split
      · exact .refl d
      · rename_i hn
        split
        · exact .refl d
        · split
          · exact .refl d
          · split
            · exact .refl d
            · rename_i hb
              exact effect_bind d _ _ (handleRefusal_none d _ hn) (by simpa using hb)
    · exact .refl d
  case unbind =>
    unfold unbindAtHead; split
    · split
      · exact .refl d
      · simp only
        split
        · exact effect_abandonPort d _
        · exact .refl d
    · exact .refl d
  case portConfig =>
    unfold portConfigAtHead; split
    · split
      · exact .refl d
      · refine effect_setPort d _ _ ?_ ?_ <;> exact Or.inl rfl
    · exact .refl d
  case queryPort =>
    unfold queryPortAtHead; split
    · split <;> exact .refl d
    · exact .refl d
  case fill =>
    unfold fillAtHead; split
    · have hc' := classReady_job d 1 (hc rfl)
      simp only
      repeat' split
      all_goals first | exact .refl d | exact effect_admitJob d _ _ _ _ hc'
    · exact .refl d
  case copyForward =>
    unfold copyForwardAtHead; split
    · have hc' := classReady_job d 1 (hc rfl)
      simp only
      repeat' split
      all_goals first | exact .refl d | exact effect_admitJob d _ _ _ _ hc'
    · exact .refl d
  case sceneReset => unfold sceneResetAtHead; split <;> [exact effect_sceneReset d; exact .refl d]

theorem LawsKept.refl (d : Device) : LawsKept d d := ⟨id, id, id, id, id, id, id⟩

theorem LawsKept.trans {d e f : Device} (h : LawsKept d e) (k : LawsKept e f) : LawsKept d f :=
  ⟨k.store ∘ h.store, k.queue ∘ h.queue, k.slab ∘ h.slab, k.order ∘ h.order, k.binding ∘ h.binding,
    k.interval ∘ h.interval, k.tag ∘ h.tag⟩

theorem kept_respond (d : Device) (q : QueuedCommand) (rest : List QueuedCommand) (r : Reply)
    (hq : d.control.commands = q :: rest)
    (hp : d.pixelRead = none) (hr : d.control.responses.length < Config.responseCapacity) : LawsKept d (d.respond r) :=
        by
  unfold Device.respond
  rw [hq]
  refine ⟨id, ?_, id, id, id, id, id⟩
  rintro ⟨h1, h2, h3, h4, h5, h6⟩
  refine ⟨?_, ?_, h3, h4, h5, ?_⟩
  · unfold Device.heldWords at h1 ⊢
    rw [hq] at h1
    simp only [List.map_cons, List.sum_cons] at h1
    show (rest.map QueuedCommand.held).sum ≤ _
    omega
  · show (d.control.responses ++ [_]).length ≤ _
    simp; omega
  · show d.pixelRead.isSome = true → _
    rw [hp]; simp

/-- The class of a command of the right length. -/
theorem waitClass_eq (q : QueuedCommand) (c : Command) (hc : commandOf (opcodeField q.word0) = some c)
    (hl : lengthFits c q = true)
    (hfull : q.params.length + 1 = commandLength c) : waitClass q = classOf c q.params := by
  unfold waitClass
  rw [hc]
  cases c <;> try rfl
  simp only [classOf]
  simp only [lengthFits, Bool.and_eq_true, beq_iff_eq] at hl
  cases hps : q.params with
  | nil => rfl
  | cons m ps =>
    rw [hps] at hfull
    have h1 : q.held = 8 := hl.1
    have h2 : (m :: ps).length = 7 := by
      have : commandLength .openSurface = 8 := rfl
      omega
    simp only [h1, h2]

theorem respond_effect (d e : Device) (q : QueuedCommand) (rest : List QueuedCommand) (r : Reply) (he : Effect d e)
    (hq : d.control.commands = q :: rest)
    (hp : d.pixelRead = none) (hr : d.control.responses.length < Config.responseCapacity) : LawsKept d
        (e.respond r) :=
  he.toLawsKept.trans (kept_respond e q rest r (he.commands.trans hq) (he.reading.trans hp)
      (by rw [he.responses]; exact hr))

/-- The execution of a head keeps each law. -/
theorem kept_executeHead (d : Device) (q : QueuedCommand) (rest : List QueuedCommand)
    (hq : d.control.commands = q :: rest)
    (hr : d.headReady q = true) : LawsKept d (executeHead q d) := by
  simp only [Device.headReady, Bool.and_eq_true, Option.isNone_iff_eq_none] at hr
  obtain ⟨⟨⟨h1, h2⟩, h3⟩, h4⟩ := hr
  have h3' : d.control.responses.length < Config.responseCapacity := by
    unfold Device.responseRoom at h3; exact of_decide_eq_true h3
  unfold executeHead headEffect
  cases hc : commandOf (opcodeField q.word0) with
  | none => exact respond_effect d d q rest _ (.refl d) hq h1 h3'
  | some c =>
    simp only
    cases hl : lengthFits c q
    · exact respond_effect d d q rest _ (.refl d) hq h1 h3'
    · simp only [if_true]
      by_cases hp : c = .pixelRead
      · subst hp
        simp only [runCommand]
        rcases pixelReadAtHead_cases q.params d with ⟨r, h⟩ | ⟨x, h⟩
        · rw [h]; exact respond_effect d d q rest _ (.refl d) hq h1 h3'
        · rw [h]
          refine ⟨id, ?_, id, id, id, id, id⟩
          rintro ⟨a1, a2, a3, a4, a5, a6⟩
          exact ⟨a1, a2, a3, a4, a5, fun _ => h3'⟩
      · obtain ⟨e1, e2⟩ := effect_runCommand c q.params d
          (fun hlen => by rw [← waitClass_eq q c hc hl hlen]; exact h4) hp
        rcases hrun : runCommand c q.params d with ⟨e, o⟩
        rw [hrun] at e1 e2
        cases o with
        | none => cases e2
        | some r => exact respond_effect d e q rest r e1 hq h1 h3'

theorem kept_settleFor (n : Nat) (d : Device) : LawsKept d (settleFor n d) := by
  induction n generalizing d with
  | zero => exact .refl d
  | succ n ih =>
    unfold settleFor
    split
    · exact .refl d
    · rename_i q rest hq
      split
      · rename_i hr; exact (kept_executeHead d q rest hq hr).trans (ih _)
      · exact .refl d

/-- The run of heads keeps each law. -/
theorem kept_settle (d : Device) : LawsKept d d.settle := kept_settleFor _ d

end Sys2Proof.Machine
end

