-- ==== Sys2Proof/Laws/Events.lean ====
section
/-! SUPPORT. For each event of the control port, the stream ports, the engines and the resets, that it keeps each law of
Safety by itself. -/

namespace Sys2Proof.Machine

theorem appendParam_held (w : Word) (cs : List QueuedCommand) : (appendParam w cs).map QueuedCommand.held
    = cs.map QueuedCommand.held := by
  induction cs with
  | nil => rfl
  | cons q cs ih =>
    cases cs with
    | nil => rfl
    | cons r rest => simp only [appendParam, List.map_cons] at ih ⊢; rw [ih]

theorem kept_setData (d : Device) (o : Option Word) : LawsKept d (d.setData o) := ⟨id, id, id, id, id, id, id⟩

theorem kept_takeWord (d : Device) (w : Word) : LawsKept d (d.takeWord w) := by
  unfold Device.takeWord
  split
  · unfold Device.firstWord
    split
    · rename_i hfit
      refine ⟨id, ?_, id, id, id, id, id⟩
      rintro ⟨a1, a2, a3, a4, a5, a6⟩
      refine ⟨?_, a2, a3, a4, a5, a6⟩
      unfold Device.freeWords at hfit
      have : Device.heldWords { d with
      control := { d.control with
        assembly := collectingAfter (admissionLength w) 1
        commands := d.control.commands ++ [⟨d.control.nextSeq, w, []⟩]
        nextSeq := d.control.nextSeq + 1 } } = d.heldWords + admissionLength w := by
        simp [Device.heldWords, QueuedCommand.held]
      rw [this]
      have := admissionLength_pos w
      omega
    · exact ⟨id, id, id, id, id, id, id⟩
  · refine ⟨id, ?_, id, id, id, id, id⟩
    rintro ⟨a1, a2, a3, a4, a5, a6⟩
    refine ⟨?_, a2, a3, a4, a5, a6⟩
    show ((appendParam w d.control.commands).map QueuedCommand.held).sum ≤ _
    rw [appendParam_held]; exact a1
  · exact ⟨id, id, id, id, id, id, id⟩

theorem kept_writeCmd (d : Device) (w : Word) : LawsKept d (d.writeCmd w) := by
  unfold Device.writeCmd
  split
  · exact (kept_setData d none).trans ((kept_takeWord _ w).trans (kept_settle _))
  · exact .refl d

theorem kept_foldl {α : Type} (f : Device → α → Device) (hf : ∀ d a, LawsKept d (f d a)) (l : List α) (d : Device) :
    LawsKept d (l.foldl f d) := by
  induction l generalizing d with
  | nil => exact .refl d
  | cons a l ih => exact (hf d a).trans (ih (f d a))

theorem kept_sendCommand (d : Device) (code low : Byte) (ps : List Word) : LawsKept d (d.sendCommand code low ps) :=
  kept_foldl _ kept_writeCmd _ d

theorem kept_control (d : Device) (c : ControlPort) (h1 : c.commands = d.control.commands)
    (h2 : c.responses.length ≤ d.control.responses.length)
    (h3 : c.completions.length ≤ d.control.completions.length) : LawsKept d { d with control := c } := by
  refine ⟨id, ?_, id, id, id, id, id⟩
  rintro ⟨a1, a2, a3, a4, a5, a6⟩
  have a : (c.commands.map QueuedCommand.held).sum ≤ Config.commandWords := by rw [h1]; exact a1
  exact ⟨a, h2.trans a2, h3.trans a3, a4, a5, fun h => lt_of_le_of_lt h2 (a6 h)⟩

theorem kept_readResp (d : Device) : LawsKept d d.readResp := by
  unfold Device.readResp
  split
  · refine (kept_setData d (some (d.readLocation .resp))).trans (LawsKept.trans ?_ (kept_settle _))
    unfold Device.popResponseWord
    split
    · exact .refl _
    · rename_i r rest h
      split
      · exact kept_control _ _ rfl (le_refl _) (le_refl _)
      · exact kept_control _ _ rfl (by rw [h]; simp) (le_refl _)
  · exact .refl d

theorem kept_readCompl (d : Device) : LawsKept d d.readCompl := by
  unfold Device.readCompl
  split
  · refine (kept_setData d (some (d.readLocation .compl))).trans (LawsKept.trans ?_ (kept_settle _))
    unfold Device.popRecordWord
    split
    · exact .refl _
    · rename_i r rest h
      split
      · exact kept_control _ _ rfl (le_refl _) (le_refl _)
      · generalize d.setData (some (d.readLocation .compl)) = e at h
        refine LawsKept.trans ?_ (effect_offerRoom _).toLawsKept
        refine kept_control e { e.control with completions := rest, completionRead := 0 } rfl (le_refl _) ?_
        rw [h]; simp
  · exact .refl d

theorem kept_acknowledge (d : Device) (t : Word) : LawsKept d (d.acknowledge t) := by
  unfold Device.acknowledge
  split
  · have : Effect d (d.mapSurfaces fun _ s => s.acked t) := by
      apply effect_mapSurfaces
      intro i s
      unfold Surface.acked
      split <;> exact ⟨rfl, rfl, rfl, id⟩
    simp only
    split
    · exact (this.trans (effect_offerIdle _)).toLawsKept
    · exact this.toLawsKept
  · exact (effect_latch d _).toLawsKept

theorem effect_setPort' (d e : Device) (n : PortNum) (p : Port) (h : Effect d e)
    (hb : p.binding = (e.port n).binding ∨ p.binding = none)
    (hi : p.interval = (e.port n).interval ∨ p.interval = none ∨ ∃ s, p.interval = some ⟨e.timeBase, s⟩) :
    Effect d (e.setPort n p) := h.trans (effect_setPort e n p hb hi)

theorem effect_refuseHeader (d : Device) (n : PortNum) (c : PortError) : Effect d (d.refuseHeader n c) :=
  effect_setPort' d _ n _ (effect_recordError d n c) (Or.inl rfl) (Or.inr (Or.inl rfl))

theorem effect_acceptHeader (d : Device) (n : PortNum) (h : Header) (t : Handle) : Effect d (d.acceptHeader n h t) :=
    by
  unfold Device.acceptHeader
  refine Effect.trans (effect_setPort d n _ ?_ ?_) (effect_examinePort _ n)
  · exact Or.inl rfl
  · exact Or.inr (Or.inl rfl)

theorem effect_collect (d : Device) (n : PortNum) (ws : List Word) : Effect d (d.collect n ws) := by
  unfold Device.collect
  split
  · unfold Device.checkHeader
    split
    · exact effect_refuseHeader d n _
    · split
      · split
        · exact effect_acceptHeader d n _ _
        · exact effect_refuseHeader d n _
      · exact effect_refuseHeader d n _
  · exact effect_setPort' d _ n _ (.refl d) (Or.inl rfl) (Or.inr (Or.inr ⟨_, rfl⟩))

theorem effect_takeMarked (d : Device) (n : PortNum) (w : Word) : Effect d (d.takeMarked n w) := by
  unfold Device.takeMarked
  split
  · exact effect_collect d n _
  · exact effect_collect d n _
  · exact effect_collect d n _
  · simp only
    refine Effect.trans (effect_setPort' d _ n _ (effect_recordError d n .shortBurst) ?_ ?_) (effect_collect _ n _)
    · exact Or.inl rfl
    · exact Or.inl rfl
  · exact .refl d

theorem effect_takeUnmarked (d : Device) (n : PortNum) (w : Word) : Effect d (d.takeUnmarked n w) := by
  unfold Device.takeUnmarked
  split
  · exact effect_refuseHeader d n _
  · exact effect_refuseHeader d n _
  · unfold Device.raiseWrite
    split
    · exact .refl d
    · exact effect_setPort' d _ n _ (.refl d) (Or.inl rfl) (Or.inr (Or.inr ⟨_, rfl⟩))
  · exact .refl d
  · exact .refl d

theorem effect_endBurst (d : Device) (n : PortNum) (b : Burst) : Effect d (d.endBurst n b) := by
  unfold Device.endBurst
  refine effect_setPort' d _ n _ ?_ (Or.inl rfl) (Or.inr (Or.inl rfl))
  have h1 := effect_setPort' d d n { d.port n with burstsCompleted := (d.port n).burstsCompleted + 1 } (.refl d)
      (Or.inl rfl) (Or.inl rfl)
  exact Effect.ite _ (fun _ => h1.trans (effect_deliverPost _ _)) (fun _ => h1)

theorem effect_completeWrite (d : Device) (n : PortNum) : Effect d (d.completeWrite n) := by
  unfold Device.completeWrite
  split
  · rename_i r b _ _
    have h1 := effect_setPort' d ((d.storePixel r).grantTo (.port n)) n { d.port n with
      writeRequest := none
      burst := some { b with remaining := b.remaining - 1 } } ((effect_storePixel d r).trans (effect_grantTo _ _))
          (Or.inl rfl) (Or.inl rfl)
    exact Effect.ite _ (fun _ => h1.trans (effect_endBurst _ _ _)) (fun _ => h1)
  · exact .refl d

theorem kept_completePixelRead (d : Device) : LawsKept d d.completePixelRead := by
  unfold Device.completePixelRead
  split
  · exact .refl d
  · rename_i r hr
    unfold Device.respond
    cases hq : d.control.commands with
    | nil =>
      simp only
      refine ⟨id, ?_, id, id, id, id, id⟩
      rintro ⟨h1, h2, h3, h4, h5, h6⟩
      exact ⟨h1, h2, h3, h4, h5, by simp⟩
    | cons q rest =>
      simp only
      refine ⟨id, ?_, id, id, id, id, id⟩
      rintro ⟨h1, h2, h3, h4, h5, h6⟩
      refine ⟨?_, ?_, h3, h4, h5, by simp⟩
      · unfold Device.heldWords at h1 ⊢
        rw [hq] at h1
        simp only [List.map_cons, List.sum_cons] at h1
        show (rest.map QueuedCommand.held).sum ≤ _
        omega
      · have := h6 (by rw [hr]; rfl)
        show (d.control.responses ++ [_]).length ≤ _
        simp; omega

theorem effect_engineSame (d : Device) (g : BlockEngine) (h : g.jobs = d.engine.jobs) :
    Effect d { d with engine := g } :=
  effect_engine d g (Or.inr (by rw [h])) (Or.inr (by rw [h]))

theorem effect_completeJobRead (d : Device) : Effect d d.completeJobRead := by
  unfold Device.completeJobRead
  split
  · exact (effect_grantTo d _).trans (effect_engineSame _ _ rfl)
  · exact .refl d

theorem effect_updateRunning (d : Device) (c : Job → Job)
    (h : ∀ j, Job.isRunning j = true → Job.isRunning (c j) = true → Job.isRunning j = true) :
    Effect d (d.updateRunning c) :=
  effect_engine d _ (Or.inr (by simp [length_updateFirst])) (Or.inr (countP_updateFirst_keep _ _ _ _ h))

theorem effect_completeJobWrite (d : Device) : Effect d d.completeJobWrite := by
  unfold Device.completeJobWrite
  split
  · rename_i r j _ _
    have h1 : Effect d (((d.storePixel r).grantTo .blockEngine).updateRunning fun k => { k with progress := k.progress + 1 }) :=
      (effect_storePixel d r).trans ((effect_grantTo _ _).trans (effect_updateRunning _ _ (fun _ h _ => h)))
    refine Effect.ite _ (fun _ => h1.trans ?_) (fun _ => h1.trans (effect_engineSame _ _ rfl))
    unfold Device.finishJob
    refine Effect.trans ?_ (effect_offerJobEnd _ _)
    refine Effect.trans ?_ (effect_startJob _)
    refine Effect.trans (effect_updateRunning _ (fun j => { j with state := .finished }) (fun _ h _ => h)) ?_
    exact effect_engineSame _ _ rfl
  · exact .refl d

/-- The composition of a pixel changes the scan record alone. -/
theorem compose_frame (d : Device) (pos : ScanPos) :
    ∃ composing reads, d.compose pos = { d with scan := { d.scan with composing := composing, reads := reads } } := by
  unfold Device.compose
  split
  · split
    · exact ⟨_, _, rfl⟩
    · exact ⟨_, _, rfl⟩
  · exact ⟨_, _, rfl⟩

/-- The composition of the pixel after a position changes the scan record alone. -/
theorem composeAfter_frame (d : Device) (pos : ScanPos) :
    ∃ composing reads, d.composeAfter pos = { d with scan := { d.scan with composing := composing, reads := reads } } := by
  unfold Device.composeAfter
  split
  · exact ⟨_, _, rfl⟩
  · exact compose_frame d _

/-- Driving panel pixel (0, 0) changes the scan record alone. -/
theorem driveFirst_frame (d : Device) : ∃ scan, d.driveFirst = { d with scan := scan } := by
  unfold Device.driveFirst
  obtain ⟨c, r, h⟩ := composeAfter_frame { d with scan := { d.scan with driven := d.scan.composing, opening := false } }
    (.frame 0 0)
  rw [h]; exact ⟨_, rfl⟩

/-- The beginning of the active region changes the scan record alone. -/
theorem openRegion_frame (d : Device) : ∃ scan, d.openRegion = { d with scan := scan } := by
  unfold Device.openRegion
  obtain ⟨c, r, h⟩ := compose_frame { d with scan := { d.scan with position := some (.frame 0 0), driven := 0 } }
    (.frame 0 0)
  simp only [h]
  split
  · obtain ⟨s, h'⟩ := driveFirst_frame { d with scan := { d.scan with
      position := some (.frame 0 0), driven := 0, composing := c, reads := r } }
    rw [h']; exact ⟨_, rfl⟩
  · exact ⟨_, rfl⟩

/-- A pixel period changes the scan record alone. -/
theorem enterPeriod_frame (d : Device) (p : ScanPos) : ∃ scan, d.enterPeriod p = { d with scan := scan } := by
  unfold Device.enterPeriod
  split
  · exact openRegion_frame d
  · obtain ⟨c, r, h⟩ := composeAfter_frame { d with scan := { d.scan with
      position := some p
      driven := if d.scan.setup.activeAt p then d.scan.composing else 0 } } p
    rw [h]; exact ⟨_, rfl⟩

/-- A scan-engine read changes the scan record alone. -/
theorem completeScanRead_frame (d : Device) : ∃ scan, d.completeScanRead = { d with scan := scan } := by
  unfold Device.completeScanRead
  split
  · exact ⟨_, rfl⟩
  · simp only
    split
    · obtain ⟨s, h⟩ := driveFirst_frame { d with scan := { d.scan with
        composing := blend _ (d.loadPixel _) d.scan.composing
        reads := _ } }
      rw [h]; exact ⟨_, rfl⟩
    · exact ⟨_, rfl⟩

/-- A composition that begins leaves the position, the pixel driven and the setup. -/
theorem composeAfter_driven (d : Device) (p : ScanPos) : (d.composeAfter p).scan.position = d.scan.position
    ∧ (d.composeAfter p).scan.driven = d.scan.driven ∧ (d.composeAfter p).scan.opening = d.scan.opening
    ∧ (d.composeAfter p).scan.setup = d.scan.setup := by
  unfold Device.composeAfter Device.compose
  split
  · exact ⟨rfl, rfl, rfl, rfl⟩
  · split
    · split <;> exact ⟨rfl, rfl, rfl, rfl⟩
    · exact ⟨rfl, rfl, rfl, rfl⟩

/-- A scan-engine read leaves the panel output as it is: the pixel of a period is the same throughout (R80). -/
theorem completeScanRead_panelLevels (d : Device) : d.completeScanRead.panelLevels = d.panelLevels := by
  unfold Device.completeScanRead
  split
  · rfl
  · rename_i r rest hr
    simp only
    split
    · rename_i h
      rw [Bool.and_eq_true, List.isEmpty_iff] at h
      obtain ⟨ho, he⟩ := h
      subst he
      obtain ⟨h1, h2, h3, h4⟩ := composeAfter_driven
        { d with scan := { d.scan with
          composing := blend r.opacity (d.loadPixel r.pos) d.scan.composing
          reads := []
          driven := blend r.opacity (d.loadPixel r.pos) d.scan.composing
          opening := false } } (.frame 0 0)
      simp only [Device.panelLevels, Device.driveFirst, h1, h2, h3, h4, ho, Device.composed, hr, List.foldl_cons,
        List.foldl_nil, if_true, if_false, Bool.false_eq_true]
    · simp only [Device.panelLevels, Device.composed, hr, List.foldl_cons]
      rfl

theorem effect_enterPeriod (d : Device) (p : ScanPos) : Effect d (d.enterPeriod p) := by
  obtain ⟨s, h⟩ := enterPeriod_frame d p
  rw [h]; exact effect_scan d s

theorem effect_completeScanRead (d : Device) : Effect d d.completeScanRead := by
  obtain ⟨s, h⟩ := completeScanRead_frame d
  rw [h]; exact effect_scan d s

theorem effect_frameBoundary (d : Device) : Effect d d.frameBoundary := by
  have h1 : Effect d d.boundaryWork := by
    unfold Device.boundaryWork
    exact (effect_scan d _).trans ((effect_latch _ _).trans (effect_applyPoint _ _))
  unfold Device.frameBoundary
  refine Effect.ite _ (fun _ => h1.trans ?_) (fun _ => h1.trans (effect_enterPeriod _ _))
  unfold Device.endScan
  exact (effect_scan _ _).trans (effect_latch _ _)

/-- One port of a tick: the expiry that can wait no longer. -/
def expire (e : Device) (n : PortNum) : Device := if e.mustExpire n then e.endEarly n .timeout else e

theorem effect_expire (d : Device) (n : PortNum) : Effect d (expire d n) := Effect.ite _
    (fun _ => effect_endEarly d n _) (fun _ => .refl d)

theorem expire_timeBase (d : Device) (n : PortNum) : (expire d n).timeBase = d.timeBase := by
  unfold expire; split
  · exact endEarly_timeBase d n _
  · rfl

theorem foldl_expire_timeBase (l : List PortNum) (d : Device) : (l.foldl expire d).timeBase = d.timeBase := by
  induction l generalizing d with
  | nil => rfl
  | cons n l ih => rw [List.foldl_cons, ih, expire_timeBase]

theorem mustExpire_iff (d : Device) (n : PortNum) : d.mustExpire n = true ↔ ∃ i, (d.port n).interval = some i
    ∧ i.setting ≠ 0 ∧ i.start + i.setting.toNat + 1 ≤ d.timeBase := by
  unfold Device.mustExpire
  split
  · rename_i h; simp [h]
  · rename_i i h; simp only [h, Option.some.injEq, exists_eq_left', Bool.and_eq_true, bne_iff_ne, decide_eq_true_eq]

theorem expire_interval (d : Device) (n m : PortNum) (i : IdleInterval)
    (h : ((expire d n).port m).interval = some i) :
    (d.port m).interval = some i ∧ (m = n → d.mustExpire n = false) := by
  unfold expire at h
  split at h
  · rw [endEarly_interval] at h
    split at h
    · cases h
    · rename_i hm; exact ⟨h, fun e => absurd e hm⟩
  · rename_i hx; exact ⟨h, fun _ => by simpa using hx⟩

theorem foldl_expire_interval (l : List PortNum) (d : Device) (m : PortNum) (i : IdleInterval)
    (h : ((l.foldl expire d).port m).interval = some i) :
    (d.port m).interval = some i ∧ (m ∈ l → d.mustExpire m = false) := by
  induction l generalizing d with
  | nil => exact ⟨h, by simp⟩
  | cons n l ih =>
    obtain ⟨h1, h2⟩ := ih (expire d n) h
    obtain ⟨h3, h4⟩ := expire_interval d n m i h1
    refine ⟨h3, fun hm => ?_⟩
    rcases List.mem_cons.1 hm with e | hm
    · subst e; exact h4 rfl
    · have := h2 hm
      rw [← Bool.not_eq_true, mustExpire_iff] at this ⊢
      rintro ⟨j, j1, j2, j3⟩
      rw [h3] at j1; cases j1
      exact this ⟨i, h1, j2, by rw [expire_timeBase]; exact j3⟩

/-- A tick is the expiries, then a microsecond. -/
theorem tick_eq (d : Device) : d.tick
    = { allPorts.foldl expire d with timeBase := (allPorts.foldl expire d).timeBase + 1 } := by
  unfold Device.tick expire; rfl

theorem kept_tick (d : Device) : LawsKept d d.tick := by
  have f1 := Effect.foldl expire effect_expire allPorts d
  have f2 := foldl_expire_timeBase allPorts d
  have f3 := fun m i h => foldl_expire_interval allPorts d m i h
  rw [tick_eq]
  generalize allPorts.foldl expire d = e at f1 f2 f3
  refine ⟨f1.store, f1.queue, f1.slab, f1.order, f1.binding, ?_, f1.tag⟩
  intro hi n i hni
  obtain ⟨g1, g2⟩ := f3 n i hni
  obtain ⟨k1, k2⟩ := hi n i g1
  have g3 := g2 (by simp [allPorts])
  rw [← Bool.not_eq_true, mustExpire_iff] at g3
  show i.start ≤ e.timeBase + 1 ∧ (i.setting ≠ 0 → e.timeBase + 1 ≤ _)
  rw [f2]
  refine ⟨by omega, fun hs => ?_⟩
  by_contra hc
  exact g3 ⟨i, g1, hs, by omega⟩

theorem kept_inReset (d : Device) : LawsKept d d.inReset := by
  have hs : ∀ i, d.inReset.surface i = Surface.freed 0 := by
    intro i; simp [Device.inReset, Device.surface]
  have hp : ∀ n, d.inReset.port n = Port.reset (d.port n).held := by
    intro n
    show (Vector.ofFn fun (n : PortNum) => Port.reset d.ports[n].held)[n.val] = _
    rw [Vector.getElem_ofFn]; rfl
  have p5 : d.inReset.freeSlabs = List.finRange 256 := by unfold Device.inReset; simp only [allSlabs]
  refine ⟨id, ?_, ?_, ?_, ?_, ?_, fun _ i => by rw [hs]; exact freed_tagged _⟩
  · intro _; simp [Device.queueLaw, Device.heldWords, Device.inReset, ControlPort.reset, BlockEngine.reset]
  · intro _
    refine ⟨fun k => ?_, fun i _ => ?_, ?_⟩
    · unfold Device.slabCount
      simp only [hs, p5]
      have h2 : ((allSlots.map fun i => (Surface.freed 0).heldSlabs.count k)).sum = 0 := by
        simp [Surface.freed, Surface.heldSlabs]
      rw [h2, List.count_eq_one_of_mem (List.nodup_finRange 256) (List.mem_finRange k)]
    · rw [hs]; rfl
    · rw [p5]; exact List.pairwise_lt_finRange 256
  · intro _
    unfold Device.orderLaw
    refine ⟨by simp [Device.inReset, StagingSet.reset], by simp [Device.inReset, StagingSet.reset],
        by simp [Device.inReset, LayerOrder.reset], by simp [Device.inReset, LayerOrder.reset],
        by simp [Device.inReset, StagingSet.reset], fun g => ?_⟩
    unfold Device.namesState
    rw [hs]; simp [Surface.freed, Device.inReset, LayerOrder.reset]
  · intro _
    refine ⟨fun m n g hm => ?_, fun n g hg => ?_⟩
    · rw [hp] at hm; cases hm
    · rw [hp] at hg; cases hg
  · intro _ n i hn; rw [hp] at hn; cases hn

theorem kept_ite {d a b : Device} (p : Prop) [Decidable p] (h : LawsKept d a) (k : LawsKept d b) : LawsKept d
    (if p then a else b) := by
  split
  · exact h
  · exact k

end Sys2Proof.Machine
end

