-- ==== Sys2Proof/Laws/PerInstr.lean ====
section
/-! SUPPORT. For each row, what it is as syntax: the words of the whole command it writes to CMD, and their framing. -/

namespace Sys2Proof.Laws.Kind

/-- The words of the whole command that a row writes to CMD (log 1); no words for a row that writes no whole command. -/
def words : Instr → List Word
  | .openSurface low params => commandWord (commandCode .openSurface) low :: params
  | .closeSurface low params => commandWord (commandCode .closeSurface) low :: params
  | .querySurface low params => commandWord (commandCode .querySurface) low :: params
  | .queryPool low params => commandWord (commandCode .queryPool) low :: params
  | .pixelRead low params => commandWord (commandCode .pixelRead) low :: params
  | .pixelReadComplete => []
  | .setPosition low params => commandWord (commandCode .setPosition) low :: params
  | .setLook low params => commandWord (commandCode .setLook) low :: params
  | .setBackground low params => commandWord (commandCode .setBackground) low :: params
  | .commit low params => commandWord (commandCode .commit) low :: params
  | .discard low params => commandWord (commandCode .discard) low :: params
  | .queryStaging low params => commandWord (commandCode .queryStaging) low :: params
  | .place low params => commandWord (commandCode .place) low :: params
  | .unplace low params => commandWord (commandCode .unplace) low :: params
  | .queryOrder low params => commandWord (commandCode .queryOrder) low :: params
  | .panelSetup low params => commandWord (commandCode .panelSetup) low :: params
  | .panelStart low params => commandWord (commandCode .panelStart) low :: params
  | .panelStop low params => commandWord (commandCode .panelStop) low :: params
  | .queryPanel low params => commandWord (commandCode .queryPanel) low :: params
  | .post low params => commandWord (commandCode .post) low :: params
  | .bind low params => commandWord (commandCode .bind) low :: params
  | .unbind low params => commandWord (commandCode .unbind) low :: params
  | .portConfig low params => commandWord (commandCode .portConfig) low :: params
  | .queryPort low params => commandWord (commandCode .queryPort) low :: params
  | .fill low params => commandWord (commandCode .fill) low :: params
  | .copyForward low params => commandWord (commandCode .copyForward) low :: params
  | .sceneReset low params => commandWord (commandCode .sceneReset) low :: params
  | .cmdWord _ => []
  | .respRead => []
  | .complRead => []
  | .ack _ => []
  | .eventWrite _ => []
  | .eventEnableWrite _ => []
  | .ignoredWrite _ _ => []
  | .deviceReset => []
  | .deviceResetRelease => []
  | .portReset _ => []
  | .portResetRelease _ => []
  | .markedWord _ _ => []
  | .unmarkedWord _ _ => []
  | .pixelWriteComplete _ => []
  | .idleTimeout _ => []
  | .jobReadComplete => []
  | .jobWriteComplete => []
  | .frameBoundary => []
  | .pixelPeriod => []
  | .scanReadComplete => []
  | .unknownOpcode opcode low params => commandWord opcode low :: params

/-- A well-formed row that writes a whole command writes as many words as its first word declares, one to eight (R158). -/
def Statement (i : Instr) : Prop :=
  i.wellFormed = true → ∀ w params, words i = w :: params →
    admissionLength w = params.length + 1 ∧ params.length ≤ 7

/-- The length that a command word declares lies in its low byte. -/
theorem admissionLength_low (code low : Byte) :
    admissionLength (commandWord code low) = admissionLength (commandWord 0 low) := by
  have h : ∀ c : Byte, (commandWord c low).extractLsb' 0 4 = low.extractLsb' 0 4 := by
    intro c
    apply BitVec.eq_of_getLsbD_eq
    intro k hk
    have hk8 : k < 8 := by omega
    rw [BitVec.getLsbD_extractLsb', BitVec.getLsbD_extractLsb', commandWord, BitVec.getLsbD_append, Nat.zero_add]
    rw [if_pos hk8]
  simp only [admissionLength, lengthField, h]

/-- A length is at most eight words. -/
theorem admissionLength_le (w : Word) : admissionLength w ≤ 8 := by
  unfold admissionLength; split_ifs <;> omega

/-- A framed command has the words its first word declares. -/
theorem framed_length (code low : Byte) (params : List Word) (h : framed low params = true) :
    admissionLength (commandWord code low) = params.length + 1 ∧ params.length ≤ 7 := by
  have h1 : params.length + 1 = admissionLength (commandWord 0 low) := by simpa [framed] using h
  rw [← admissionLength_low code low] at h1
  have h2 := admissionLength_le (commandWord code low)
  omega

/-- The statement of a row whose words are those of one framed command. -/
theorem of_framed (i : Instr) (code low : Byte) (params : List Word) (hw : words i = commandWord code low :: params)
    (hf : i.wellFormed = true → framed low params = true) : Statement i := by
  intro h w ps e
  rw [hw] at e
  cases e
  exact framed_length code low params (hf h)

/-- The statement of a row that writes no whole command. -/
theorem of_none (i : Instr) (hw : words i = []) : Statement i := by
  intro _ w ps e
  rw [hw] at e
  cases e

theorem openSurface (low : Byte) (params : List Word) : Statement (.openSurface low params) :=
  of_framed _ _ _ _ rfl id

theorem closeSurface (low : Byte) (params : List Word) : Statement (.closeSurface low params) :=
  of_framed _ _ _ _ rfl id

theorem querySurface (low : Byte) (params : List Word) : Statement (.querySurface low params) :=
  of_framed _ _ _ _ rfl id

theorem queryPool (low : Byte) (params : List Word) : Statement (.queryPool low params) :=
  of_framed _ _ _ _ rfl id

theorem pixelRead (low : Byte) (params : List Word) : Statement (.pixelRead low params) :=
  of_framed _ _ _ _ rfl id

theorem pixelReadComplete : Statement .pixelReadComplete :=
  of_none _ rfl

theorem setPosition (low : Byte) (params : List Word) : Statement (.setPosition low params) :=
  of_framed _ _ _ _ rfl id

theorem setLook (low : Byte) (params : List Word) : Statement (.setLook low params) :=
  of_framed _ _ _ _ rfl id

theorem setBackground (low : Byte) (params : List Word) : Statement (.setBackground low params) :=
  of_framed _ _ _ _ rfl id

theorem commit (low : Byte) (params : List Word) : Statement (.commit low params) :=
  of_framed _ _ _ _ rfl id

theorem discard (low : Byte) (params : List Word) : Statement (.discard low params) :=
  of_framed _ _ _ _ rfl id

theorem queryStaging (low : Byte) (params : List Word) : Statement (.queryStaging low params) :=
  of_framed _ _ _ _ rfl id

theorem place (low : Byte) (params : List Word) : Statement (.place low params) :=
  of_framed _ _ _ _ rfl id

theorem unplace (low : Byte) (params : List Word) : Statement (.unplace low params) :=
  of_framed _ _ _ _ rfl id

theorem queryOrder (low : Byte) (params : List Word) : Statement (.queryOrder low params) :=
  of_framed _ _ _ _ rfl id

theorem panelSetup (low : Byte) (params : List Word) : Statement (.panelSetup low params) :=
  of_framed _ _ _ _ rfl id

theorem panelStart (low : Byte) (params : List Word) : Statement (.panelStart low params) :=
  of_framed _ _ _ _ rfl id

theorem panelStop (low : Byte) (params : List Word) : Statement (.panelStop low params) :=
  of_framed _ _ _ _ rfl id

theorem queryPanel (low : Byte) (params : List Word) : Statement (.queryPanel low params) :=
  of_framed _ _ _ _ rfl id

theorem post (low : Byte) (params : List Word) : Statement (.post low params) :=
  of_framed _ _ _ _ rfl id

theorem bind (low : Byte) (params : List Word) : Statement (.bind low params) :=
  of_framed _ _ _ _ rfl id

theorem unbind (low : Byte) (params : List Word) : Statement (.unbind low params) :=
  of_framed _ _ _ _ rfl id

theorem portConfig (low : Byte) (params : List Word) : Statement (.portConfig low params) :=
  of_framed _ _ _ _ rfl id

theorem queryPort (low : Byte) (params : List Word) : Statement (.queryPort low params) :=
  of_framed _ _ _ _ rfl id

theorem fill (low : Byte) (params : List Word) : Statement (.fill low params) :=
  of_framed _ _ _ _ rfl id

theorem copyForward (low : Byte) (params : List Word) : Statement (.copyForward low params) :=
  of_framed _ _ _ _ rfl id

theorem sceneReset (low : Byte) (params : List Word) : Statement (.sceneReset low params) :=
  of_framed _ _ _ _ rfl id

theorem cmdWord (w : Word) : Statement (.cmdWord w) :=
  of_none _ rfl

theorem respRead : Statement .respRead :=
  of_none _ rfl

theorem complRead : Statement .complRead :=
  of_none _ rfl

theorem ack (value : Word) : Statement (.ack value) :=
  of_none _ rfl

theorem eventWrite (w : Word) : Statement (.eventWrite w) :=
  of_none _ rfl

theorem eventEnableWrite (w : Word) : Statement (.eventEnableWrite w) :=
  of_none _ rfl

theorem ignoredWrite (location : ReadOnlyLocation) (w : Word) : Statement (.ignoredWrite location w) :=
  of_none _ rfl

theorem deviceReset : Statement .deviceReset :=
  of_none _ rfl

theorem deviceResetRelease : Statement .deviceResetRelease :=
  of_none _ rfl

theorem portReset (n : PortNum) : Statement (.portReset n) :=
  of_none _ rfl

theorem portResetRelease (n : PortNum) : Statement (.portResetRelease n) :=
  of_none _ rfl

theorem markedWord (n : PortNum) (w : Word) : Statement (.markedWord n w) :=
  of_none _ rfl

theorem unmarkedWord (n : PortNum) (w : Word) : Statement (.unmarkedWord n w) :=
  of_none _ rfl

theorem pixelWriteComplete (n : PortNum) : Statement (.pixelWriteComplete n) :=
  of_none _ rfl

theorem idleTimeout (n : PortNum) : Statement (.idleTimeout n) :=
  of_none _ rfl

theorem jobReadComplete : Statement .jobReadComplete :=
  of_none _ rfl

theorem jobWriteComplete : Statement .jobWriteComplete :=
  of_none _ rfl

theorem frameBoundary : Statement .frameBoundary :=
  of_none _ rfl

theorem pixelPeriod : Statement .pixelPeriod :=
  of_none _ rfl

theorem scanReadComplete : Statement .scanReadComplete :=
  of_none _ rfl

theorem unknownOpcode (opcode low : Byte) (params : List Word) : Statement (.unknownOpcode opcode low params) :=
  of_framed _ _ _ _ rfl fun h => (Bool.and_eq_true_iff.mp h).1

end Sys2Proof.Laws.Kind
end

