-- ==== Sys2Proof/Laws/Words.lean ====
section
/-! SUPPORT. Words as numbers, and the parameter words that name a handle or a port. -/

namespace Sys2Proof.Machine

/-- A number at a bit position that fits the word has the value it stands for. -/
theorem bitsAt_toNat (v lo : Nat) (h : v * 2^lo < 65536) : (bitsAt v lo).toNat = v * 2^lo := by
  have hv : v < 65536 := lt_of_le_of_lt (Nat.le_mul_of_pos_right v (by positivity)) h
  simp only [bitsAt, BitVec.toNat_shiftLeft, BitVec.toNat_ofNat, Nat.shiftLeft_eq, Nat.reducePow]
  rw [Nat.mod_eq_of_lt hv, Nat.mod_eq_of_lt h]

/-- A field of a word as a quotient and a remainder. -/
theorem fieldOf_eq (w : Word) (lo len : Nat) : fieldOf w lo len = w.toNat / 2^lo % 2^len := by
  rw [fieldOf, BitVec.extractLsb'_toNat, Nat.shiftRight_eq_div_pow]

/-- Three channels side by side make one pixel (Table 11-1). -/
theorem pack (r g b : Nat) (hr : r < 32) (hg : g < 64) (hb : b < 32) :
   (bitsAt r 11 ||| bitsAt g 5 ||| bitsAt b 0).toNat = r * 2048 + g * 32 + b := by
  have h1 := Nat.two_pow_add_eq_or_of_lt (i := 11) (b := g * 32) (by omega) r
  have h2 := Nat.two_pow_add_eq_or_of_lt (i := 5) (b := b) (by omega) (r * 64 + g)
  rw [BitVec.toNat_or, BitVec.toNat_or, bitsAt_toNat _ _ (by omega), bitsAt_toNat _ _ (by omega), bitsAt_toNat _ _
      (by omega)]
  have e1 : r * 2^11 ||| g * 2^5 = r * 2048 + g * 32 := by
    rw [show r * 2^11 = 2^11 * r by ring, show g * 2^5 = g * 32 by norm_num, ← h1]; ring
  rw [e1, show r * 2048 + g * 32 = 2^5 * (r * 64 + g) by ring, show b * 2^0 = b by norm_num, ← h2]

/-- Two fields side by side, the lower one below bit `i`, as a number. -/
theorem toNat_or_fields (a b i : Nat) (c d : Word) (h1 : c.toNat = 2^i * a) (h2 : d.toNat = b) (hb : b < 2^i) :
    (c ||| d).toNat = 2^i * a + b := by
  rw [BitVec.toNat_or, h1, h2, Nat.two_pow_add_eq_or_of_lt hb]

/-- A flag at a bit position of the word has the value of that position. -/
theorem flagAt_toNat (b : Bool) (lo : Nat) (h : lo < 16) : (flagAt b lo).toNat = if b then 2^lo else 0 := by
  have hlo : (2:Nat)^lo < 2^16 := Nat.pow_lt_pow_right (by omega) h
  cases b
  · show (bitsAt 0 lo).toNat = 0
    rw [bitsAt_toNat _ _ (by simp)]; simp
  · show (bitsAt 1 lo).toNat = 2^lo
    rw [bitsAt_toNat _ _ (by simpa using hlo)]; simp

/-- A handle word as a number (Table 11-5). -/
theorem handleWord_toNat (h : Handle) : (handleWord h).toNat = h.slot.val * 256 + h.generation.toNat := by
  have hs := h.slot.isLt
  have hg := h.generation.isLt
  unfold handleWord
  rw [toNat_or_fields h.slot.val h.generation.toNat 8 _ _ (by rw [bitsAt_toNat _ _ (by omega)]; ring)
    (by rw [bitsAt_toNat _ _ (by omega)]; simp) (by omega)]
  ring

/-- A handle word reads back as its handle. -/
theorem handleOf_handleWord (h : Handle) : handleOf (handleWord h) = h := by
  obtain ⟨s, g⟩ := h
  have hs := s.isLt
  have hg := g.isLt
  have hw : handleWord ⟨s, g⟩ = BitVec.ofNat 16 (s.val * 256 + g.toNat) := by
    apply BitVec.eq_of_toNat_eq
    have h1 : s.val <<< 8 % 65536 = 2 ^ 8 * s.val := by
      rw [Nat.shiftLeft_eq]; omega
    have h2 : g.toNat <<< 0 % 65536 = g.toNat := by
      rw [Nat.shiftLeft_eq]; omega
    have h3 : s.val % 65536 = s.val := by omega
    have h4 : g.toNat % 65536 = g.toNat := by omega
    have := Nat.two_pow_add_eq_or_of_lt (i := 8) (b := g.toNat) hg s.val
    simp only [handleWord, bitsAt, BitVec.toNat_or, BitVec.toNat_shiftLeft, BitVec.toNat_ofNat, Nat.reducePow, h3,
        h4, h1, h2]
    simp only [Nat.reducePow] at this
    rw [← this]; omega
  simp only [handleOf, hw]
  congr 1
  · apply Fin.ext
    show (BitVec.extractLsb' 8 4 _).toNat = _
    rw [BitVec.extractLsb'_toNat]
    simp [Nat.shiftRight_eq_div_pow]; omega
  · apply BitVec.eq_of_toNat_eq
    rw [BitVec.extractLsb'_toNat]
    simp; omega

/-- A port number above 3 names no port. -/
theorem decodePort_none (w : Word) (h : 3 < w.toNat) : decodePort w = none := by
  simp [decodePort]; omega

/-- A port number up to 3 names its port. -/
theorem decodePort_some (w : Word) (n : PortNum) (h : w.toNat = n.val) : decodePort w = some n := by
  simp [decodePort, h]

end Sys2Proof.Machine
end

