-- ==== Sys2Proof/Tests/Slice0.lean ====
section
/-! SUPPORT. Tests of the model on small devices: the values of the spec's own examples, the terms that the well-formedness
check refuses, and for each statement with hypotheses a device and operands that meet them together. -/

namespace Sys2Proof.Tests

open Sys2Proof.Machine

set_option Elab.async false

/-! ## Small devices -/

/-- The handle of slot 0, generation 1; its word is 0001h. -/
def h1 : Handle := ⟨0, 1⟩

/-- A surface of 4 × 3 pixels at (2, 1), opacity 16, tag 5. -/
def surf (st : SlotState) (bf : Buffering) (fl : FlipState) : Surface where
  state := st
  generation := 1
  buffering := bf
  orientation := .r0
  sourceWidth := 4
  sourceHeight := 3
  bufferA := [0]
  bufferB := if bf = .double then some [1] else Option.none
  front := .a
  committed := ⟨2, 1, 16, 5⟩
  pendingLook := ⟨2, 1, 16, 5⟩
  flip := fl
  noticeTag := 5
  flipCount := 0

/-- The device after reset with one surface in slot 0. -/
def one (st : SlotState) (bf : Buffering) (fl : FlipState) : Device :=
  { Device.reset with
    freeSlabs := allSlabs.drop (if bf = .double then 2 else 1)
    surfaces := Device.reset.surfaces.set 0 (surf st bf fl)
    staging := { StagingSet.reset with order := if st = .live then [h1] else [] }
    layers := { LayerOrder.reset with order := if st = .live ∨ st = .closing then [h1] else [] } }

/-- A dirty staging set, or an armed one. -/
def staged (st : StagingState) (d : Device) : Device := { d with staging := { d.staging with state := st, dirty := true } }

/-- The setup of a panel of 16 × 16, its lines of 24 periods and its frames of 17 lines. -/
def panel16 : PanelSetup := ⟨16, 16, 8, 1, 1, .activeLow, .activeLow⟩

/-- A panel of 16 × 16 in a scan state. -/
def scanning (st : ScanState) (pos : Option ScanPos) (d : Device) : Device :=
  { d with scan := { d.scan with state := st, setup := panel16, position := pos } }

/-- A job of surface h1: the fill of the two pixels (0, 0) and (1, 0) of buffer B. -/
def job (id : Byte) (progress : Nat) (st : JobState) : Job := ⟨id, .fill 0x1234, h1, .b, ⟨0, 0, 2, 1⟩, progress, st⟩

/-- A write of 1234h to the first pixel of slab 1. -/
def write0 : WriteRequest := ⟨⟨1, 0⟩, 0x1234⟩

/-- The device with jobs and the request of the running one. -/
def withJobs (jobs : List Job) (r : Option EngineRequest) (d : Device) : Device :=
  { d with engine := ⟨jobs, 8, r⟩ }

/-- A burst of 2 × 1 pixels into surface h1. -/
def burst (buffer : Option BufferId) (remaining : Nat) (post : Bool) : Burst := ⟨0, 0, 2, 1, post, h1, buffer, remaining⟩

/-- A port bound to surface h1, its idle timeout 5. -/
def portIn (st : PortState) (b : Option Burst) (w : Option WriteRequest) : Port :=
  { Port.reset false with
    state := st, binding := some h1, burst := b, writeRequest := w, timeoutSetting := 5
    interval := if st = .idle ∨ st = .discarding ∨ st = .stalled then none else some ⟨0, 5⟩ }

/-- The device with port S0 so. -/
def onPort (p : Port) (d : Device) : Device := d.setPort 0 p

/-- Port S0 with its write waiting and so many pixels to go. -/
def writing (remaining : Nat) (post : Bool) (d : Device) : Device :=
  onPort (portIn .pixels (some (burst (some .b) remaining post)) (some write0)) d

/-- The device with a scan-engine read waiting, which the arbiter grants first. -/
def reading (d : Device) : Device := { d with scan := { d.scan with reads := [⟨⟨0, 0⟩, 16⟩] } }

/-- A running panel with a surface over panel pixel (0, 0). -/
def atOrigin (pos : ScanPos) : Device :=
  scanning .running (some pos)
    { one .live .single .none with
      surfaces := Device.reset.surfaces.set 0 { surf .live .single .none with committed := ⟨0, 0, 16, 5⟩ } }

/-- The completion queue with so many records. -/
def records (k : Nat) (d : Device) : Device :=
  { d with control := { d.control with completions := List.replicate k (.jobEnd h1 0 .done) } }

/-- A head in execution as PIXEL_READ and 58 words of commands behind it: one word is free. -/
def crowded : Device :=
  { one .dormant .single .none with
    pixelRead := some ⟨⟨0, 0⟩, .a⟩
    control := { ControlPort.reset with
      commands := ⟨0, 0x0905, [0x0001, 0, 0, 0]⟩ :: List.replicate 7 ⟨1, 0x0108, List.replicate 7 0⟩ ++ [⟨8, 0x0302, [1]⟩] } }

/-- The device held in reset. -/
def heldInReset : Device := { Device.reset with pins := ⟨false, none⟩ }

/-- The device after a step, with nothing waiting. -/
def after (c : Instr) (d : Device) : Option Device :=
  match exec c ⟨d, []⟩ with
  | .next t => some t.dev
  | _ => none

/-- The responses after a step. -/
def answers (c : Instr) (d : Device) : Option (List Response) := (after c d).map fun e => e.control.responses

/-! ## Which terms are steps of the table -/

theorem wellFormed_command_framed : Instr.wellFormed (.setLook 0x03 [0x0001, 0x0110]) = true := by decide

theorem wellFormed_command_short_refused : Instr.wellFormed (.setLook 0x03 [0x0001]) = false := by decide

theorem wellFormed_command_long_refused : Instr.wellFormed (.commit 0x01 [0]) = false := by decide

theorem wellFormed_length_nine_is_eight : Instr.wellFormed (.openSurface 0x09 [0, 0, 0, 0, 0, 0, 0]) = true := by decide

theorem wellFormed_unknown_opcode : Instr.wellFormed (.unknownOpcode 0x3E 0xF0 []) = true := by decide

theorem wellFormed_known_opcode_refused : Instr.wellFormed (.unknownOpcode 0x3F 0x01 []) = false := by decide

theorem wellFormed_unknown_unframed_refused : Instr.wellFormed (.unknownOpcode 0x00 0x02 []) = false := by decide

/-- COMMIT is 1301h and SET_LOOK 1103h (spec/11 11.2). -/
theorem commandWords_of_the_spec : commandWord (commandCode .commit) 0x01 = 0x1301
    ∧ commandWord (commandCode .setLook) 0x03 = 0x1103 := by decide

/-! ## The bring-up of Table 12-1 -/

theorem bringUp_panelSetup :
    (after (.panelSetup 0x06 [800, 480, 160, 45, 0x0002]) Device.reset).map (fun d => (d.scan.setup, d.control.responses))
      = some (⟨800, 480, 160, 45, 2, .activeLow, .activeLow⟩, [⟨0, .ok, 0x20, []⟩]) := by decide +kernel

theorem bringUp_open :
    (after (.openSurface 0x08 [0x0101, 320, 240, 0, 0, 0x0110, 0]) Device.reset).map
      (fun d => (d.freeSlabs.length, d.engine.jobs.map fun j => (j.id, j.target, j.state), d.control.responses))
      = some (218, [(0, .a, .running), (1, .b, .queued)], [⟨0, .ok, 0x01, [0x0001, 19, 0, 1]⟩]) := by decide +kernel

theorem bringUp_place :
    (after (.place 0x04 [0x0001, 0, 0]) (one .dormant .double .none)).map
      (fun d => (d.staging.order, d.staging.dirty, d.control.responses))
      = some ([h1], true, [⟨0, .ok, 0x18, [0]⟩]) := by decide +kernel

theorem bringUp_commit :
    (after (.commit 0x01 [])
      { one .dormant .double .none with staging := { StagingSet.reset with order := [h1], dirty := true } }).map
      (fun d => ((d.surface 0).state, d.layers.order, d.control.completions, d.control.responses))
      = some (.live, [h1], [.applied 1 0 true], [⟨0, .ok, 0x13, [1]⟩]) := by decide +kernel

theorem bringUp_panelStart :
    answers (.panelStart 0x01 []) (scanning .stopped none (one .live .double .none))
      = some [⟨0, .ok, 0x21, [0]⟩] := by decide +kernel

/-! ## Two surfaces sharing tag 4 (Table 12-2) -/

/-- A LIVE surface of tag 4 in a flip state, with its notice tag and count. -/
def paced (fl : FlipState) (front : BufferId) (notice : Nat) (count : BitVec 16) : Surface :=
  { surf .live .double fl with committed := ⟨2, 1, 16, 4⟩, front := front, noticeTag := notice, flipCount := count }

/-- Two such surfaces before the frame boundary of a frame number. -/
def pacedPair (frame : BitVec 32) (r q : Surface) : Device :=
  { scanning .running (some (.frame 15 15)) Device.reset with
    surfaces := (Device.reset.surfaces.set 0 r).set 1 q
    scan := { (scanning .running (some (.frame 15 15)) Device.reset).scan with frameNumber := frame } }

theorem pacing_step1 :
    (after .frameBoundary (pacedPair 700 (paced .posted .a 0 0) (paced .posted .a 0 0))).map
      (fun d => (d.surface 0 == paced .shown .b 4 1, d.surface 1 == paced .shown .b 4 1, d.control.completions,
        d.events.latched))
      = some (true, true, [.flip ⟨0, 1⟩ 4 1 701 false, .flip ⟨1, 1⟩ 4 1 701 false], 0x0004) := by decide +kernel

theorem pacing_step2 :
    (after (.post 0x02 [0x0001]) (pacedPair 701 (paced .shown .b 4 1) (paced .shown .b 4 1))).map
      (fun d => ((d.surface 0).flip, d.control.responses)) = some (.shownHeld, [⟨0, .ok, 0x28, [3]⟩]) := by decide +kernel

theorem pacing_step3 :
    (after (.ack 4) (pacedPair 701 (paced .shownHeld .b 4 1) (paced .shown .b 4 1))).map
      (fun d => ((d.surface 0).flip, (d.surface 1).flip)) = some (.posted, .none) := by decide +kernel

theorem pacing_step7 :
    (after (.ack 4) (pacedPair 702 (paced .none .a 4 2) (paced .posted .b 4 1))).map
      (fun d => (d.surface 1 == paced .posted .b 4 1, d.events.latched)) = some (true, 0x0020) := by decide +kernel

/-! ## Closing a busy surface (Table 12-3) -/

/-- The surface with two jobs and a stalled port, LIVE and POSTED, and 15 records. -/
def busyClose : Device :=
  onPort (portIn .stalled (some (burst none 2 false)) none)
    (withJobs [job 60 1 .running, ⟨61, .copyForward .a, h1, .b, ⟨0, 0, 2, 1⟩, 0, .queued⟩] (some (.write write0))
      (records 15 (scanning .running (some (.frame 0 0)) (one .live .double .posted))))

theorem closing_step1 :
    (after (.closeSurface 0x02 [0x0001]) busyClose).map
      (fun d => ((d.surface 0).state, (d.surface 0).flip, d.staging.order, d.control.responses))
      = some (.closing, .none, [], [⟨0, .ok, 0x02, [1]⟩]) := by decide +kernel

theorem closing_step1_jobs_and_port :
    (after (.closeSurface 0x02 [0x0001]) busyClose).map
      (fun d => (d.engine.jobs.map fun j => (j.id, j.state), (d.port 0).state, (d.port 0).lastError,
        d.control.completions.drop 15, d.events.latched))
      = some ([(61, .aborted)], .discarding, .abandoned, [.jobEnd h1 60 .aborted], 0x0048) := by decide +kernel

theorem closing_step4 :
    (after .complRead
      { withJobs [job 61 0 .aborted] none (records 16 (one .closing .double .none)) with
        control := { (records 16 Device.reset).control with completionRead := 3 } }).map
      (fun d => (d.engine.jobs, d.control.completions.drop 15, (d.surface 0).state, d.pins.dataOut))
      = some ([], [.jobEnd h1 61 .aborted], .closing, some 0) := by decide +kernel

theorem closing_step6 :
    (after .frameBoundary
      (records 14 (staged .armed (scanning .running (some (.frame 15 15)) (one .closing .double .none))))).map
      (fun d => (d.surface 0 == Surface.freed 1, d.layers.order, d.control.completions.drop 14, d.freeSlabs.length,
        d.events.latched))
      = some (true, [], [.applied 1 1 false, .released h1 2], 256, 0x0004) := by decide +kernel

/-! ## Words of the control port -/

/-- The words of the response to OPEN in Table 12-1, by Table 11-6. -/
theorem response_words_of_open : responseWords ⟨0, .ok, 0x01, [0x0001, 19, 0, 1]⟩ = [0xC000, 0x0100, 0x0001, 19, 0, 1] := by
  decide

/-- The words of a record of each kind, by Table 11-11. -/
theorem record_words :
    recordWords (.flip ⟨2, 7⟩ 4 1 701 true) = [0x1207, 0x8004, 1, 701]
    ∧ recordWords (.applied 31 0x00010386 false) = [0x2000, 31, 0x0386, 1]
    ∧ recordWords (.jobEnd ⟨2, 1⟩ 61 .aborted) = [0x3201, 0x803D, 0, 0]
    ∧ recordWords (.released ⟨2, 1⟩ 38) = [0x4201, 38, 0, 0] := by decide

theorem respRead_first_word :
    (after .respRead { Device.reset with control := { ControlPort.reset with responses := [⟨9, .busy, 0x28, []⟩] } }).map
      (fun d => (d.pins.dataOut, d.control.responseRead)) = some (some 0x8809, 1) := by decide +kernel

theorem queueStatus_after_open :
    (after (.openSurface 0x08 [0x0101, 320, 240, 0, 0, 0x0110, 0]) Device.reset).map
      (fun d => (d.readLocation .queueStatus, d.readLocation .event, d.readLocation .cmd))
      = some (0x0401, 0x0001, 64) := by decide +kernel

theorem deviceStatus_armed :
    (after (.setLook 0x03 [0x0001, 0x0110]) (staged .armed (one .live .double .none))).map
      (fun d => (d.readLocation .deviceStatus, d.readLocation .cmd)) = some (0x030C, 61) := by decide +kernel

theorem eventWrite_clears :
    (after (.eventWrite 0x0004) { Device.reset with events := ⟨0x0024, 0⟩ }).map (fun d => d.events.latched)
      = some 0x0020 := by decide +kernel

theorem eventEnable_raises_irq :
    (after (.eventEnableWrite 0xFFFF) { Device.reset with events := ⟨0x0004, 0⟩ }).map
      (fun d => (d.irqN, d.readLocation .eventEnable)) = some (false, 0x07FF) := by decide +kernel

/-! ## Pixels -/

/-- Half of white over black, and white over blue at 15 sixteenths. -/
theorem blend_values : blend 8 0xFFFF 0x0000 = 0x7BEF ∧ blend 15 0xFFFF 0x001F = 0xEF7F := by decide

theorem pixelRead_written_pixel :
    (after .pixelReadComplete
      { crowded with
        store := [(8192, 0x34), (8193, 0x12)], pixelRead := some ⟨⟨1, 0⟩, .b⟩, scan := ScanEngine.reset
        control := { ControlPort.reset with commands := [⟨0, 0x0905, [0x0001, 1, 0, 0]⟩] } }).map
      (fun d => (d.control.responses, d.control.commands)) = some ([⟨0, .ok, 0x09, [0x1234, 1]⟩], []) := by decide +kernel

theorem burst_first_pixel :
    (after (.pixelWriteComplete 0)
      (onPort (portIn .pixels (some (burst (some .b) 2 true)) (some write0)) (one .live .double .none))).map
      (fun d => (d.store, (d.port 0).writeRequest, (d.port 0).burst.map (·.remaining), d.rotation))
      = some ([(8192, 0x34), (8193, 0x12)], none, some 1, .port 0) := by decide +kernel

theorem burst_last_pixel_posts :
    (after (.pixelWriteComplete 0)
      (onPort (portIn .pixels (some (burst (some .b) 1 true)) (some write0))
        (scanning .running (some (.frame 0 0)) (one .live .double .none)))).map
      (fun d => ((d.port 0).state, (d.port 0).burstsCompleted, (d.surface 0).flip)) = some (.idle, 1, .posted) := by
  decide +kernel

theorem fill_job_ends :
    (after .jobWriteComplete (withJobs [job 7 1 .running] (some (.write write0)) (one .live .double .none))).map
      (fun d => (d.engine.jobs, d.control.completions, d.store))
      = some ([], [.jobEnd h1 7 .done], [(8192, 0x34), (8193, 0x12)]) := by decide +kernel

theorem scan_composes :
    (after .pixelPeriod (scanning .running (some (.frame 1 0)) (one .live .single .none))).map
      (fun d => (d.scan.position, d.scan.reads)) = some (some (.frame 1 1), [⟨⟨0, 0⟩, 16⟩]) := by decide +kernel

theorem scanRead_blends :
    (after .scanReadComplete
      { Device.reset with
        store := [(0, 0xFF), (1, 0xFF)], scan := { ScanEngine.reset with reads := [⟨⟨0, 0⟩, 8⟩] } }).map
      (fun d => (d.scan.composing, d.scan.reads)) = some (0x7BEF, []) := by decide +kernel

/-- No read is raised in the last lead-in period (R82); the active region begins with those of its first pixel, and its first
period carries the pixel that they compose (R80). -/
theorem scan_opens :
    (after .pixelPeriod (atOrigin (.leadIn 0 22))).map (fun d => (d.scan.position, d.scan.reads))
      = some (some (.leadIn 0 23), [])
    ∧ (after .pixelPeriod { atOrigin (.leadIn 0 23) with store := [(0, 0x34), (1, 0x12)] }).map
      (fun d => (d.scan.position, d.scan.reads, d.scan.opening, d.panelLevels))
      = some (some (.frame 0 0), [⟨⟨0, 0⟩, 16⟩], true, ⟨true, true, 0x1234, true, true⟩) := by decide +kernel

theorem scan_opening_read_drives :
    (((after .pixelPeriod (atOrigin (.frame 16 23))).map fun d => { d with store := [(0, 0x34), (1, 0x12)] }).bind
      (after .scanReadComplete)).map (fun d => (d.scan.reads, d.panelLevels))
      = some ([⟨⟨0, 1⟩, 16⟩], ⟨true, true, 0x1234, true, true⟩) := by decide +kernel

/-! ## The hypotheses of the statements are met

A theorem for each statement with hypotheses; each conjunct is the hypotheses of one clause, together, on a concrete device
and concrete operands, at the ends of their ranges where a clause has a range. -/

/-- An armed device: a staging-class head waits. -/
def armedDevice : Device := staged .armed (one .live .double .none)

/-- A head that may execute: QUERY_POOL. -/
def headDue : Device :=
  { Device.reset with control := { ControlPort.reset with commands := [⟨0, 0x0801, []⟩] } }

/-- One LIVE surface on a running panel. -/
def inUse : Device := scanning .running (some (.frame 1 0)) (one .live .double .none)

/-- Every slot taken. -/
def allTaken : Device := { Device.reset with surfaces := Vector.replicate 16 (surf .dormant .single .none) }

theorem meets_AccessesInReset : heldInReset.pins.resetN = false ∧ Device.reset.pins.resetN = true := by decide +kernel

theorem meets_CmdWordTaken :
    (Device.reset.pins.resetN = true ∧ Device.reset.control.assembly = .idle ∧ admissionLength 0x1301 ≤ Device.reset.freeWords)
    ∧ (crowded.pins.resetN = true ∧ crowded.control.assembly = .idle ∧ admissionLength 0x1301 ≤ crowded.freeWords)
    ∧ (crowded.freeWords < admissionLength 0x0202 ∧ crowded.headsWait)
    ∧ ({ crowded with control := { crowded.control with assembly := .dropping 2 1 } }).headsWait
    ∧ ({ Device.reset with control := { ControlPort.reset with assembly := .collecting 3 1 } }).control.assembly
      = .collecting 3 1 := by
  unfold Device.headsWait; decide +kernel

theorem meets_CommandQueueKept :
    (crowded.pins.resetN = true ∧ crowded.control.assembly = .idle ∧ framed 0x01 [] = true
      ∧ ([] : List Word).length + 1 ≤ crowded.freeWords ∧ (crowded.queueing (commandWord (commandCode .commit) 0x01) []).headsWait
      ∧ (crowded.queueing (commandWord 0x00 0x01) []).headsWait)
    ∧ (framed 0x04 [0x0001, 0, 0] = true ∧ [(0x0001 : Word), 0, 0].length + 1 ≤ armedDevice.freeWords
      ∧ armedDevice.control.assembly = .idle
      ∧ (armedDevice.queueing (commandWord (commandCode .setPosition) 0x04) [0x0001, 0, 0]).headsWait)
    ∧ (framed 0x02 [1] = true ∧ crowded.freeWords < [(1 : Word)].length + 1 ∧ crowded.headsWait)
    ∧ (headDue.control.commands = ⟨0, 0x0801, []⟩ :: [] ∧ headDue.headReady ⟨0, 0x0801, []⟩ = true)
    ∧ (opcodeField 0x1902 ∈ ([0x02, 0x10, 0x11, 0x12, 0x13, 0x14, 0x18, 0x19] : List Byte)
      ∧ opcodeField 0x3908 ∈ ([0x38, 0x39] : List Byte)
      ∧ opcodeField 0x0108 = 0x01 ∧ admissionLength 0x0108 = 8 ∧ (0x0100 : Word).getLsbD 8 = true
      ∧ admissionLength 0x0107 ≠ 8 ∧ (0x0001 : Word).getLsbD 8 = false
      ∧ opcodeField 0x3F01
        ∉ ([0x01, 0x02, 0x10, 0x11, 0x12, 0x13, 0x14, 0x18, 0x19, 0x38, 0x39] : List Byte)) := by
  unfold Device.headsWait; decide +kernel

theorem meets_MalformedCommandsRefused :
    (Device.reset.takesCommands = true ∧ framed 0x01 [] = true ∧ declares 0x01 (commandLength .openSurface) = false
      ∧ Device.reset.classReady (waitClass ⟨Device.reset.control.nextSeq, commandWord (commandCode .openSurface) 0x01, []⟩)
        = true)
    ∧ (framed 0x09 (List.replicate 7 0) = true ∧ declares 0x09 (commandLength .fill) = false
      ∧ Device.reset.classReady
        (waitClass ⟨Device.reset.control.nextSeq, commandWord (commandCode .fill) 0x09, List.replicate 7 0⟩) = true)
    ∧ Instr.wellFormed (.unknownOpcode 0x00 0x01 []) = true := by decide +kernel

theorem meets_OpenResult :
    (Device.reset.takesCommands = true ∧ declares 0x08 8 = true ∧ decodeMode 0x0002 = none ∧ decodeLook 0x0011 = none
      ∧ 1024 < (1025 : Word).toNat ∧ 2047 < (2048 : Word).toNat)
    ∧ (decodeMode 0x0011 = some ⟨.double, .r90, false⟩ ∧ decodeLook 0x3F10 = some ⟨16, 63⟩
      ∧ 1 ≤ (1024 : Word).toNat ∧ (1024 : Word).toNat ≤ 1024 ∧ (2047 : Word).toNat ≤ 2047
      ∧ Device.reset.freeSlabs.length < slabsWanted .double (slabsFor 1024 1024))
    ∧ (decodeMode 0x0000 = some ⟨.single, .r0, false⟩ ∧ decodeLook 0x0000 = some ⟨0, 0⟩
      ∧ (∀ j < (1 : Slot), ((one .live .double .none).surface j).state ≠ .free)
      ∧ ((one .live .double .none).surface 1).state = .free
      ∧ slabsWanted .single (slabsFor 1 1) ≤ (one .live .double .none).freeSlabs.length)
    ∧ (∀ i, (allTaken.surface i).state ≠ .free) := by decide +kernel

theorem meets_OpenFillResult :
    (Device.reset.takesCommands = true ∧ declares 0x08 8 = true ∧ decodeMode 0x0100 = some ⟨.single, .r0, true⟩
      ∧ decodeLook 0x0110 = some ⟨16, 1⟩ ∧ Device.reset.engine.jobs.length + 1 ≤ 4
      ∧ (Device.reset.surface 0).state = .free ∧ (∀ j < (0 : Slot), (Device.reset.surface j).state ≠ .free)
      ∧ slabsWanted .single (slabsFor 1024 1024) ≤ Device.reset.freeSlabs.length)
    ∧ (decodeMode 0x0101 = some ⟨.double, .r0, true⟩
      ∧ (withJobs [job 6 2 .finished, job 7 2 .finished] none (one .dormant .double .none)).takesCommands = true
      ∧ (withJobs [job 6 2 .finished, job 7 2 .finished] none Device.reset).engine.jobs.length + 2 ≤ 4
      ∧ ((one .dormant .double .none).surface 1).state = .free
      ∧ (∀ j < (1 : Slot), ((one .dormant .double .none).surface j).state ≠ .free)
      ∧ slabsWanted .double (slabsFor 640 480) ≤ (one .dormant .double .none).freeSlabs.length) := by decide +kernel

theorem meets_CloseResult :
    (declares 0x02 2 = true ∧ Device.reset.takesCommands = true ∧ Device.reset.staging.state = .opened
      ∧ Device.reset.handleRefusal (handleOf 0x0001) = some .badHandle)
    ∧ ((one .closing .double .none).takesCommands = true
      ∧ (one .closing .double .none).handleRefusal (handleOf 0x0001) = some .badState)
    ∧ (busyClose.takesCommands = true ∧ busyClose.staging.state = .opened
      ∧ busyClose.handleRefusal (handleOf 0x0001) = none ∧ (busyClose.surface (handleOf 0x0001).slot).state = .live)
    ∧ ((one .dormant .double .none).takesCommands = true
      ∧ (one .dormant .double .none).handleRefusal (handleOf 0x0001) = none
      ∧ ((one .dormant .double .none).surface (handleOf 0x0001).slot).state ≠ .live) := by decide +kernel

/-- The bindings of the busy device are lawful: S0 alone is bound, to a LIVE surface. -/
theorem busyClose_bindingLaw : busyClose.bindingLaw := by
  have hb : ∀ n h, (busyClose.port n).binding = some h → n = 0 ∧ h = h1 := by
    intro n h hn
    fin_cases n
    · exact ⟨rfl, (Option.some.inj hn).symm⟩
    · cases hn
    · cases hn
    · cases hn
  refine ⟨fun m n h hm hn => (hb m h hm).1.trans (hb n h hn).1.symm, fun n h hn => ?_⟩
  rw [(hb n h hn).2]
  exact ⟨by decide +kernel, by decide +kernel⟩

/-- The binding of one port to a LIVE surface is lawful. -/
theorem onPort_bindingLaw (d : Device) (p : Port) (hp : p.binding = some h1) (hs : d.namesState h1 SlotState.editable)
    (hd : ∀ n, n ≠ 0 → (d.port n).binding = none) : (onPort p d).bindingLaw := by
  have hb : ∀ n h, ((onPort p d).port n).binding = some h → n = 0 ∧ h = h1 := by
    intro n h hn
    by_cases h0 : n = 0
    · subst h0
      have : ((onPort p d).port 0).binding = some h1 := by rw [← hp]; simp [onPort]
      rw [this] at hn; exact ⟨rfl, (Option.some.inj hn).symm⟩
    · have : (onPort p d).port n = d.port n := by
        have h' : ¬ (0 : PortNum) = n := fun e => h0 e.symm
        rw [onPort, Device.setPort_port, if_neg h']
      rw [this, hd n h0] at hn; cases hn
  refine ⟨fun m n h hm hn => (hb m h hm).1.trans (hb n h hn).1.symm, fun n h hn => ?_⟩
  rw [(hb n h hn).2]
  exact hs

theorem meets_CloseWithdraws :
    (busyClose.bindingLaw ∧ (busyClose.port 0).binding = some h1 ∧ (busyClose.port 0).state = .stalled
      ∧ (busyClose.port 1).binding ≠ some h1
      ∧ ∀ n, (busyClose.port n).binding = some h1 → (busyClose.port n).writeRequest = none)
    ∧ ((writing 2 false (one .live .double .none)).bindingLaw
      ∧ ((writing 2 false (one .live .double .none)).port 0).state = .pixels
      ∧ ((writing 2 false (one .live .double .none)).port 0).writeRequest = some write0
      ∧ (writing 2 false (one .live .double .none)).grants (.rotating (.port 0)) = true
      ∧ Memory.wf (writing 2 false (one .live .double .none)).store ∧ (⟨2, 0⟩ : PixelPos) ≠ write0.pos)
    ∧ ((onPort (portIn .discarding none none) (one .live .double .none)).bindingLaw
      ∧ ((onPort (portIn .discarding none none) (one .live .double .none)).port 0).state = .discarding)
    ∧ (one .live .double .none).bindingLaw ∧ ∀ n, ((one .live .double .none).port n).binding ≠ some h1 := by
  refine ⟨⟨busyClose_bindingLaw, by decide +kernel, by decide +kernel, by decide +kernel, by decide +kernel⟩,
    ⟨onPort_bindingLaw _ _ rfl ⟨by decide +kernel, by decide +kernel⟩ (by decide +kernel), by decide +kernel,
      by decide +kernel, by decide +kernel, by decide +kernel, by decide +kernel⟩,
    ⟨onPort_bindingLaw _ _ rfl ⟨by decide +kernel, by decide +kernel⟩ (by decide +kernel), by decide +kernel⟩,
    ⟨?_, ?_⟩, by decide +kernel⟩
  · have hb : ∀ n, ((one .live .double .none).port n).binding = none := by decide +kernel
    intro m n h hm
    rw [hb] at hm; cases hm
  · have hb : ∀ n, ((one .live .double .none).port n).binding = none := by decide +kernel
    intro n h hn
    rw [hb] at hn; cases hn

theorem meets_SurfaceAndPortQueried :
    (declares 0x02 2 = true ∧ Device.reset.takesCommands = true ∧ Device.reset.validHandle (handleOf 0x0001) = false)
    ∧ ((one .closing .double .none).takesCommands = true ∧ (one .closing .double .none).validHandle (handleOf 0x0001) = true)
    ∧ 3 < (4 : Word).toNat ∧ (3 : Word).toNat = (3 : PortNum).val := by decide +kernel

theorem meets_PixelReadTaken :
    (declares 0x05 5 = true ∧ (one .live .double .none).takesCommands = true
      ∧ (one .live .double .none).validHandle (handleOf 0x0002) = false
      ∧ (one .live .double .none).validHandle (handleOf 0x0001) = true
      ∧ ((one .live .double .none).surface (handleOf 0x0001).slot).width ≤ (4 : Word).toNat
      ∧ (3 : Word).toNat < ((one .live .double .none).surface (handleOf 0x0001).slot).width
      ∧ (2 : Word).toNat < ((one .live .double .none).surface (handleOf 0x0001).slot).height)
    ∧ (crowded.pixelRead = some ⟨⟨0, 0⟩, .a⟩ ∧ crowded.grants (.rotating .pixelRead) = true
      ∧ (crowded.control.commands.head?).isSome = true)
    ∧ Device.reset.grants (.rotating .pixelRead) = false := by decide +kernel

theorem meets_ArbiterGrants :
    [RotatingClient.port 0, .port 1, .port 2, .port 3, .blockEngine, .pixelRead]
      = [.port 0, .port 1] ++ .port 2 :: [.port 3, .blockEngine, .pixelRead] := rfl

theorem meets_FrameStoreHoldsPixels :
    Memory.wf [(8192, 0x34), (8193, 0x12)]
    ∧ ((surf .live .double .none).slabList .b).length
      = slabsFor (surf .live .double .none).sourceWidth (surf .live .double .none).sourceHeight
    ∧ ((surf .live .double .none).slabList .b).Nodup ∧ 3 < (surf .live .double .none).width
    ∧ 2 < (surf .live .double .none).height := by decide +kernel

theorem meets_AppearanceEdits :
    (declares 0x04 4 = true ∧ declares 0x03 3 = true ∧ (one .live .double .none).takesCommands = true
      ∧ (one .live .double .none).staging.state = .opened
      ∧ (one .live .double .none).handleRefusal (handleOf 0xF001) = none
      ∧ (one .live .double .none).handleRefusal (handleOf 0x0101) = some .badHandle
      ∧ (2047 : Word).toNat ≤ 2047 ∧ 2047 < (2048 : Word).toNat
      ∧ decodeLook 0x3F10 = some ⟨16, 63⟩ ∧ decodeLook 0x0011 = none ∧ decodeLook 0x0020 = none) := by decide +kernel

/-- An edited staging set while the panel runs. -/
def editedRunning : Device := staged .opened (scanning .running (some (.frame 0 0)) (one .live .double .none))

theorem meets_SetBackgroundResult : declares 0x02 2 = true ∧ (one .live .double .none).takesCommands = true
    ∧ (one .live .double .none).staging.state = .opened := by decide +kernel

theorem meets_CommitAndDiscardResult :
    declares 0x01 1 = true ∧ declares 0x00 1 = true
    ∧ ((one .live .double .none).takesCommands = true ∧ (one .live .double .none).staging.state = .opened
      ∧ (one .live .double .none).staging.dirty = false)
    ∧ ((staged .opened (one .live .double .none)).takesCommands = true
      ∧ (staged .opened (one .live .double .none)).staging.state = .opened
      ∧ (staged .opened (one .live .double .none)).staging.dirty = true
      ∧ (staged .opened (one .live .double .none)).scan.state = .stopped)
    ∧ (editedRunning.takesCommands = true ∧ editedRunning.staging.state = .opened ∧ editedRunning.staging.dirty = true
      ∧ editedRunning.scan.state ≠ .stopped) := by decide +kernel

theorem meets_QueriesChangeNothing : editedRunning.takesCommands = true ∧ declares 0x01 1 = true
    ∧ declares 0xF0 1 = true := by decide +kernel

/-- Two handles in the pending order, and a third surface. -/
def ordered (order : List Handle) : Device :=
  { one .dormant .double .none with staging := { StagingSet.reset with order := order } }

/-- Eight handles that are not h1. -/
def eight : List Handle := (List.finRange 8).map fun i => ⟨⟨i.val + 1, by omega⟩, 1⟩

theorem meets_PlaceAndUnplaceResult :
    (declares 0x04 4 = true ∧ (ordered []).takesCommands = true ∧ (ordered []).staging.state = .opened
      ∧ (ordered []).handleRefusal (handleOf 0x0002) = some .badHandle
      ∧ (ordered []).handleRefusal (handleOf 0x0001) = none ∧ 3 < (4 : Word).toNat)
    ∧ (handleOf 0x0101 ∉ (ordered [h1]).staging.order ∧ (ordered [h1]).handleRefusal (handleOf 0x0001) = none)
    ∧ ((ordered eight).takesCommands = true ∧ handleOf 0x0001 ∉ (ordered eight).staging.order
      ∧ handleOf 0x0101 ∈ (ordered eight).staging.order ∧ handleOf 0x0101 ≠ handleOf 0x0001
      ∧ 8 ≤ (ordered eight).staging.order.length)
    ∧ ((ordered (h1 :: eight.take 7)).staging.order.Nodup ∧ h1 ∈ (ordered (h1 :: eight.take 7)).staging.order
      ∧ (ordered (eight.take 7)).staging.order.length < 8)
    ∧ (eight.take 7 = [] ++ [⟨1, 1⟩] ++ (eight.take 7).tail ∧ eight.take 7 = [] ++ ⟨1, 1⟩ :: (eight.take 7).tail)
    ∧ (h1 ∉ eight.take 2 ∧ (ordered (eight.take 2 ++ [h1])).staging.order = eight.take 2 ++ handleOf 0x0001 :: []) := by
  decide +kernel

theorem meets_BatchApplies :
    Device.reset.staging.state = .opened
    ∧ ((records 16 armedDevice).staging.state = .armed ∧ 16 ≤ (records 16 armedDevice).control.completions.length)
    ∧ ((records 15 armedDevice).staging.state = .armed ∧ (records 15 armedDevice).control.completions.length < 16) := by
  decide +kernel

theorem meets_FlipAndReleaseTaken :
    (((one .live .double .shown).surface 0).flip ≠ .posted)
    ∧ (((one .live .double .posted).surface 0).flip = .posted
      ∧ ((one .live .double .posted).engine.jobs.countP fun j => j.handle == (one .live .double .posted).handleAt 0) = 0
      ∧ (records 15 (one .live .double .posted)).control.completions.length < 16
      ∧ 16 ≤ (records 16 (one .live .double .posted)).control.completions.length)
    ∧ (((one .live .double .posted).surface 0).state ≠ .releasing ∧ ((one .releasing .double .none).surface 0).state = .releasing
      ∧ ((one .releasing .double .none).engine.jobs.countP fun j => j.handle == (one .releasing .double .none).handleAt 0)
        = 0) := by decide +kernel

theorem meets_ApplyPointOrder :
    armedDevice.takesBatch = true ∧ (records 16 armedDevice).takesBatch = false ∧ armedDevice.scan.state = .stopped
    ∧ inUse.scan.state ≠ .stopped := by decide +kernel

theorem meets_PanelCommands :
    (declares 0x06 6 = true ∧ declares 0x01 1 = true ∧ Device.reset.takesCommands = true
      ∧ Device.reset.scan.state = .stopped ∧ Device.reset.scan.setup.activeWidth = 0)
    ∧ ((15 : Word).toNat < 16 ∧ 768 < (769 : Word).toNat ∧ (16 : Word).toNat ≤ 1024 ∧ 1 ≤ (255 : Word).toNat
      ∧ (1023 : Word).toNat ≤ 1023 ∧ decodeTiming 0x0310 = some ⟨16, .activeHigh, .activeHigh⟩ ∧ decodeTiming 0x0011 = none
      ∧ decodeTiming 0x0000 = none)
    ∧ ((scanning .stopped none Device.reset).takesCommands = true
      ∧ (scanning .stopped none Device.reset).scan.setup.activeWidth ≠ 0)
    ∧ ((scanning .running (some (.leadIn 0 0)) Device.reset).takesCommands = true
      ∧ (scanning .running (some (.leadIn 0 0)) Device.reset).scan.state = .running)
    ∧ ((scanning .draining (some (.frame 0 0)) Device.reset).takesCommands = true
      ∧ (scanning .draining (some (.frame 0 0)) Device.reset).scan.state = .draining) := by decide +kernel

theorem meets_FramesScanned :
    ((scanning .running (some (.frame 15 14)) Device.reset).scan.position = some (.frame 15 14)
      ∧ .frame 15 14 ≠ ScanPos.frame
        ((scanning .running (some (.frame 15 14)) Device.reset).scan.setup.activeHeight - 1)
        ((scanning .running (some (.frame 15 14)) Device.reset).scan.setup.activeWidth - 1)
      ∧ (scanning .running (some (.frame 15 14)) Device.reset).scan.reads = [])
    ∧ (panel16.activeWidth + panel16.hBlank ≤ 23 + 1 ∧ 22 + 1 < panel16.activeWidth + panel16.hBlank
      ∧ panel16.vBlank ≤ 0 + 1 ∧ 15 + 1 < panel16.activeHeight + panel16.vBlank
      ∧ panel16.activeHeight + panel16.vBlank ≤ 16 + 1 ∧ panel16.next (.frame 16 22) = .frame 16 23
      ∧ panel16.next (.frame 16 23) = .frame 0 0 ∧ panel16.next (.leadIn 0 23) = .frame 0 0
      ∧ panel16.next (.frame 0 0) = .frame 0 1)
    ∧ ((atOrigin (.leadIn 0 23)).scan.reads = [] ∧ (atOrigin (.leadIn 0 23)).panelReads 0 0 ≠ []
      ∧ (scanning .running (some (.leadIn 0 23)) Device.reset).panelReads 0 0 = [])
    ∧ (Device.reset.scan.position = none ∧ (atOrigin (.leadIn 0 18)).scan.position = some (.leadIn 0 18)
      ∧ (atOrigin (.frame 16 21)).scan.setup.activeHeight ≤ 16
      ∧ (atOrigin (.frame 16 21)).scan.setup.activeWidth + 2 ≤ 18
      ∧ 21 ≤ (atOrigin (.frame 16 21)).scan.setup.activeWidth + 5)
    ∧ ((scanning .draining (some (.frame 15 15)) Device.reset).scan.position
        = some (.frame ((scanning .draining (some (.frame 15 15)) Device.reset).scan.setup.activeHeight - 1)
          ((scanning .draining (some (.frame 15 15)) Device.reset).scan.setup.activeWidth - 1))
      ∧ (scanning .draining (some (.frame 15 15)) Device.reset).scan.state = .draining)
    ∧ ((scanning .running (some (.frame 15 15)) Device.reset).scan.position
        = some (.frame ((scanning .running (some (.frame 15 15)) Device.reset).scan.setup.activeHeight - 1)
          ((scanning .running (some (.frame 15 15)) Device.reset).scan.setup.activeWidth - 1))
      ∧ (scanning .running (some (.frame 15 15)) Device.reset).scan.state ≠ .draining
      ∧ 1 ≤ (scanning .running (some (.frame 15 15)) Device.reset).scan.setup.activeWidth
      ∧ 2 ≤ (scanning .running (some (.frame 15 15)) Device.reset).scan.setup.hBlank
      ∧ 15 < (scanning .running (some (.frame 15 15)) Device.reset).scan.setup.activeHeight
      ∧ 15 < (scanning .running (some (.frame 15 15)) Device.reset).scan.setup.activeWidth) := by decide +kernel

theorem meets_PanelPixelComposed :
    ((surf .live .single .none).committed.x ≤ 5
      ∧ 5 ≤ (surf .live .single .none).committed.x + (surf .live .single .none).width - 1
      ∧ 1 ≤ (surf .live .single .none).width
      ∧ (surf .live .single .none).committed.y ≤ 3
      ∧ 3 ≤ (surf .live .single .none).committed.y + (surf .live .single .none).height - 1
      ∧ 1 ≤ (surf .live .single .none).height ∧ (surf .live .single .none).committed.opacity ≠ 0)
    ∧ (surf .live .single .none).committed.x + (surf .live .single .none).width ≤ 6
    ∧ Device.reset.scan.reads = []
    ∧ ((reading Device.reset).scan.reads = ⟨⟨0, 0⟩, 16⟩ :: [] ∧ (reading Device.reset).scan.opening = false)
    ∧ ((after .pixelPeriod (atOrigin (.leadIn 0 23))).map
        fun d => (d.scan.reads, d.scan.opening, d.scan.setup.next (.frame 0 0)))
      = some ([⟨⟨0, 0⟩, 16⟩], true, .frame 0 1) := by decide +kernel

theorem meets_PostResult :
    (declares 0x02 2 = true ∧ (one .live .single .none).takesCommands = true
      ∧ (one .live .single .none).handleRefusal (handleOf 0x0001) = none
      ∧ (one .live .single .none).handleRefusal (handleOf 0x0000) = some .badHandle
      ∧ ((one .live .single .none).surface 0).buffering = .single)
    ∧ ((onPort (portIn .stalled (some (burst none 2 false)) none) (one .live .double .posted)).takesCommands = true
      ∧ (onPort (portIn .stalled (some (burst none 2 false)) none) (one .live .double .posted)).underBurst h1 = true)
    ∧ ((one .live .double .posted).takesCommands = true ∧ (one .live .double .posted).underBurst h1 = false
      ∧ ((one .live .double .posted).surface 0).flip = .posted ∧ ((one .live .double .shown).surface 0).flip = .shown
      ∧ (one .live .double .shown).underBurst h1 = false ∧ (one .live .double .shown).takesCommands = true)
    ∧ ((scanning .running (some (.frame 0 0)) (one .live .double .none)).takesCommands = true
      ∧ (scanning .running (some (.frame 0 0)) (one .live .double .none)).scan.state ≠ .stopped
      ∧ ((scanning .running (some (.frame 0 0)) (one .live .double .none)).surface 0).flip = .none)
    ∧ busyClose.bindingLaw := by
  refine ⟨?_, ?_, ?_, ?_, busyClose_bindingLaw⟩ <;> decide +kernel

theorem meets_AckReleases :
    ((one .live .double .shownHeld).pins.resetN = true
      ∧ (∃ i, (((one .live .double .shownHeld).surface i).flip = .shown ∨ ((one .live .double .shownHeld).surface i).flip = .shownHeld)
        ∧ ((one .live .double .shownHeld).surface i).noticeTag = (5 : Word).toNat)
      ∧ (one .live .double .shownHeld).scan.state = .stopped)
    ∧ ((∃ i, (((one .live .double .shown).surface i).flip = .shown ∨ ((one .live .double .shown).surface i).flip = .shownHeld)
        ∧ ((one .live .double .shown).surface i).noticeTag = (5 : Word).toNat)
      ∧ ∀ i, ¬ (((one .live .double .shown).surface i).noticeTag = (5 : Word).toNat
        ∧ ((one .live .double .shown).surface i).flip = .shownHeld)) := by decide +kernel

theorem meets_StrayAckLatched :
    (one .live .double .shown).pins.resetN = true ∧ (one .live .double .shown).headsWait
    ∧ (∀ i, (((one .live .double .shown).surface i).flip = .shown ∨ ((one .live .double .shown).surface i).flip = .shownHeld) →
      ((one .live .double .shown).surface i).noticeTag ≠ (6 : Word).toNat)
    ∧ ((∀ i, ((one .live .double .shown).surface i).noticeTag ≤ 63) ∧ 63 < (64 : Word).toNat)
    ∧ (one .live .double .shown).tagLaw := by
  unfold Device.headsWait Device.tagLaw Surface.tagged; decide +kernel

theorem meets_BindingsChange :
    (declares 0x03 3 = true ∧ declares 0x02 2 = true ∧ (one .live .double .none).takesCommands = true
      ∧ (one .live .double .none).handleRefusal (handleOf 0x0001) = none
      ∧ (one .live .double .none).handleRefusal (handleOf 0x0002) = some .badHandle
      ∧ 3 < (4 : Word).toNat ∧ (3 : Word).toNat = (3 : PortNum).val
      ∧ ((one .live .double .none).port 3).state = .idle ∧ (one .live .double .none).boundPort (handleOf 0x0001) = none
      ∧ ((one .live .double .none).port 3).binding = none)
    ∧ ((onPort (portIn .header none none) (one .live .double .none)).takesCommands = true
      ∧ ((onPort (portIn .header none none) (one .live .double .none)).port 0).state = .header
      ∧ ((onPort (portIn .header none none) (one .live .double .none)).port 0).binding ≠ none
      ∧ ((onPort (portIn .header none none) (one .live .double .none)).port 0).writeRequest = none
      ∧ (writing 2 false (one .live .double .none)).takesCommands = true
      ∧ ((writing 2 false (one .live .double .none)).port 0).writeRequest = some write0
      ∧ (writing 2 false (one .live .double .none)).grants (.rotating (.port 0)) = true
      ∧ (onPort (portIn .header none none) (one .live .double .none)).handleRefusal (handleOf 0x0001) = none)
    ∧ (((onPort (portIn .discarding none none) (one .live .double .none)).port 0).state = .discarding
      ∧ (onPort (portIn .discarding none none) (one .live .double .none)).boundPort (handleOf 0x0001) = some 0
      ∧ ((onPort (portIn .discarding none none) (one .live .double .none)).port 0).binding ≠ none)
    ∧ busyClose.bindingLaw := by
  refine ⟨?_, ?_, ?_, busyClose_bindingLaw⟩ <;> decide +kernel

/-- Port S0 in HEADER with the words of a header so far. -/
def inHeader (words : List Word) (d : Device) : Device :=
  onPort { portIn .header none none with header := words } d

theorem meets_MarkedWordCollected :
    (heldInReset.ready 0 = false) ∧ (Device.reset.ready 0 = true ∧ (Device.reset.port 0).state = .idle)
    ∧ ((inHeader [0, 1, 2] Device.reset).ready 0 = true ∧ ((inHeader [0, 1, 2] Device.reset).port 0).state = .header
      ∧ 1 ≤ ((inHeader [0, 1, 2] Device.reset).port 0).header.length
      ∧ ((inHeader [0, 1, 2] Device.reset).port 0).header.length ≤ 3)
    ∧ ((onPort (portIn .pixels (some (burst (some .b) 2 false)) none) (one .live .double .none)).ready 0 = true
      ∧ ((onPort (portIn .pixels (some (burst (some .b) 2 false)) none) (one .live .double .none)).port 0).state = .pixels) := by
  decide +kernel

theorem meets_HeaderChecked :
    ((inHeader [0x0001, 0, 0, 4] (one .live .double .none)).ready 0 = true
      ∧ ((inHeader [0x0001, 0, 0, 4] (one .live .double .none)).port 0).state = .header
      ∧ ((inHeader [0x0001, 0, 0, 4] (one .live .double .none)).port 0).header = [0x0001, 0, 0, 4]
      ∧ ((inHeader [0x0001, 0, 0, 4] (one .live .double .none)).port 0).binding = some h1
      ∧ (0x0001 : Word) &&& 0xFFFE = 0 ∧ (0x0001 : Word).getLsbD 0 = true
      ∧ ((one .live .double .none).surface 0).buffering = .double
      ∧ 0 + (4 : Word).toNat ≤ ((one .live .double .none).surface 0).sourceWidth
      ∧ 0 + (3 : Word).toNat ≤ ((one .live .double .none).surface 0).sourceHeight
      ∧ ((one .live .double .none).surface 0).sourceHeight < 1 + (3 : Word).toNat
      ∧ (inHeader [0x0001, 0, 0, 4] (one .live .double .none)).writable h1 ((one .live .double .none).surface 0).writeBuffer
        = true
      ∧ (inHeader [0x0001, 0, 0, 4] (one .live .double .posted)).writable h1 ((one .live .double .posted).surface 0).writeBuffer
        = false)
    ∧ ((0x0002 : Word) &&& 0xFFFE ≠ 0 ∧ 1023 < (1024 : Word).toNat ∧ ((one .live .single .none).surface 0).buffering = .single)
    ∧ (((inHeader [0, 0, 0, 1] Device.reset).setPort 0
        { (inHeader [0, 0, 0, 1] Device.reset).port 0 with binding := none }).port 0).binding = none := by decide +kernel

theorem meets_WritableBuffers :
    ((∀ n, ((one .live .double .none).port n).binding ≠ some h1))
    ∧ (((onPort (portIn .stalled (some (burst none 2 false)) none) (one .live .double .none)).port 0).binding = some h1
      ∧ (∀ m, ((onPort (portIn .stalled (some (burst none 2 false)) none) (one .live .double .none)).port m).binding
        = some h1 → m = 0)
      ∧ ((onPort (portIn .stalled (some (burst none 2 false)) none) (one .live .double .none)).port 0).state = .stalled
      ∧ (onPort (portIn .stalled (some (burst none 2 false)) none) (one .live .double .none)).writable h1 .b = true
      ∧ (onPort (portIn .stalled (some (burst none 2 false)) none) (one .live .double .posted)).writable h1 .b = false)
    ∧ ((writing 2 false (one .live .double .none)).port 0).state ≠ .stalled := by decide +kernel

theorem meets_UnmarkedWordTaken :
    (Device.reset.ready 0 = true ∧ (Device.reset.port 0).state = .idle)
    ∧ ((onPort (portIn .discarding none none) Device.reset).ready 0 = true
      ∧ ((onPort (portIn .discarding none none) Device.reset).port 0).state = .discarding)
    ∧ ((onPort (portIn .pixels (some (burst (some .b) 1 false)) none) (one .live .double .none)).ready 0 = true
      ∧ ((onPort (portIn .pixels (some (burst (some .b) 1 false)) none) (one .live .double .none)).port 0).burst
        = some (burst (some .b) 1 false)
      ∧ (burst (some .b) 1 false).buffer = some .b)
    ∧ (onPort (portIn .pixels (some (burst (some .b) 1 false)) (some write0)) (one .live .double .none)).ready 0 = false := by
  decide +kernel

theorem meets_OrientationMapping :
    0 < (surf .live .double .none).sourceWidth ∧ 2 < (surf .live .double .none).sourceHeight
    ∧ 3 < (surf .live .double .none).sourceWidth ∧ 0 < (surf .live .double .none).sourceHeight := by decide +kernel

theorem meets_PixelWriteCompletes :
    (Device.reset.grants (.rotating (.port 0)) = false)
    ∧ ((writing 2 false (one .live .double .none)).grants (.rotating (.port 0)) = true
      ∧ ((writing 2 false (one .live .double .none)).port 0).burst = some (burst (some .b) 2 false)
      ∧ ((writing 2 false (one .live .double .none)).port 0).writeRequest = some write0
      ∧ 2 ≤ (burst (some .b) 2 false).remaining)
    ∧ ((burst (some .b) 1 false).remaining ≤ 1 ∧ (burst (some .b) 1 false).postOnEnd = false
      ∧ (writing 1 false (one .live .double .none)).grants (.rotating (.port 0)) = true)
    ∧ ((writing 1 true (one .live .double .shown)).grants (.rotating (.port 0)) = true
      ∧ (burst (some .b) 1 true).postOnEnd = true ∧ (writing 1 true (one .live .double .shown)).scan.state = .stopped)
    ∧ ((writing 1 true (scanning .draining (some (.frame 0 0)) (one .live .double .shown))).grants (.rotating (.port 0)) = true
      ∧ (writing 1 true (scanning .draining (some (.frame 0 0)) (one .live .double .shown))).scan.state ≠ .stopped
      ∧ ((one .live .double .shown).surface (burst (some .b) 1 true).target.slot).flip = .shown
      ∧ ((one .live .double .none).surface (burst (some .b) 1 true).target.slot).flip = .none) := by decide +kernel

/-- A port in HEADER whose interval began at 0 under setting 5. -/
def timed (now : Nat) : Device := { inHeader [0] Device.reset with timeBase := now }

theorem meets_EmptyQueueTick :
    (∀ n i, (Device.reset.port n).interval = some i → i.setting = 0)
    ∧ (∀ i, ((timed 5).port 0).interval = some i → (timed 5).timeBase < i.start + i.setting.toNat + 1)
    ∧ (∃ i, ((timed 6).port 0).interval = some i ∧ i.setting ≠ 0 ∧ i.start + i.setting.toNat + 1 ≤ (timed 6).timeBase)
    ∧ ∀ m < (0 : PortNum), ((timed 6).port m).interval = none := by
  refine ⟨fun n i h => ?_, fun i h => ?_, ⟨⟨0, 5⟩, by decide +kernel⟩, by decide +kernel⟩
  · fin_cases n <;> cases h
  · cases h; decide +kernel

theorem meets_IdleTimeoutTaken :
    (((timed 4).port 0).interval = some ⟨0, 5⟩ ∧ (timed 4).timeBase < 0 + (5 : Word).toNat)
    ∧ (((timed 5).port 0).interval = some ⟨0, 5⟩ ∧ (5 : Word) ≠ 0 ∧ 0 + (5 : Word).toNat ≤ (timed 5).timeBase
      ∧ ((timed 5).port 0).writeRequest = none)
    ∧ (((writing 2 false (one .live .double .none)).port 0).writeRequest = some write0
      ∧ ((writing 2 false (one .live .double .none)).port 0).interval = some ⟨0, 5⟩
      ∧ ({ writing 2 false (one .live .double .none) with timeBase := 5 }).grants (.rotating (.port 0)) = true
      ∧ (reading (writing 2 false (one .live .double .none))).grants (.rotating (.port 0)) = false) := by decide +kernel

theorem meets_PortResets :
    ((Device.reset.port 0).held = false ∧ (Device.reset.port 0).state = .idle)
    ∧ (((timed 0).port 0).held = false ∧ ((timed 0).port 0).state = .header ∧ ((timed 0).port 0).writeRequest = none)
    ∧ ((onPort { portIn .discarding none none with held := true } Device.reset).port 0).held = true
    ∧ (((writing 2 false (one .live .double .none)).port 0).held = false
      ∧ ((writing 2 false (one .live .double .none)).port 0).state = .pixels
      ∧ ((writing 2 false (one .live .double .none)).port 0).writeRequest = some write0
      ∧ (writing 2 false (one .live .double .none)).grants (.rotating (.port 0)) = true) := by decide +kernel

theorem meets_JobCommands :
    (declares 0x08 8 = true ∧ declares 0x06 6 = true ∧ (one .live .double .none).takesCommands = true
      ∧ (one .live .double .none).engine.jobs.length < 4
      ∧ (one .live .double .none).handleRefusal (handleOf 0x0001) = none
      ∧ (one .live .double .none).handleRefusal (handleOf 0x0100) = some .badHandle
      ∧ (one .live .double .none).underBurst h1 = false
      ∧ 3 + (1 : Word).toNat ≤ ((one .live .double .none).surface 0).width
      ∧ 0 + (3 : Word).toNat ≤ ((one .live .double .none).surface 0).height
      ∧ ((one .live .double .posted).surface 0).flip = .posted ∧ (one .live .double .posted).underBurst h1 = false
      ∧ ((one .live .single .none).surface 0).buffering = .single)
    ∧ (onPort (portIn .stalled (some (burst none 2 false)) none) (one .live .double .none)).underBurst h1 = true := by
  decide +kernel

theorem meets_JobAdmitted :
    (∃ j ∈ (withJobs [job 7 0 .running] none Device.reset).engine.jobs, j.state = .running)
    ∧ (∀ j ∈ (withJobs [job 7 2 .finished] none Device.reset).engine.jobs, j.state ≠ .running ∧ j.state ≠ .queued)
    ∧ ((withJobs [job 5 2 .finished, job 6 0 .queued, job 7 0 .queued] none Device.reset).engine.jobs
        = [job 5 2 .finished] ++ job 6 0 .queued :: [job 7 0 .queued]
      ∧ (∀ k ∈ [job 5 2 .finished, job 6 0 .queued, job 7 0 .queued], k.state ≠ .running)
      ∧ (∀ k ∈ [job 5 2 .finished], k.state ≠ .queued) ∧ (job 6 0 .queued).state = .queued) := by
  decide +kernel

theorem meets_JobReadCompletes :
    Device.reset.grants (.rotating .blockEngine) = false
    ∧ ((withJobs [job 7 0 .running] (some (.write write0)) Device.reset).engine.request = some (.write write0))
    ∧ ((withJobs [job 7 0 .running] (some (.read ⟨1, 0⟩)) Device.reset).grants (.rotating .blockEngine) = true
      ∧ (withJobs [job 7 0 .running] (some (.read ⟨1, 0⟩)) Device.reset).engine.request = some (.read ⟨1, 0⟩)
      ∧ (withJobs [job 7 0 .running] (some (.read ⟨1, 0⟩)) Device.reset).engine.jobs
        = [] ++ job 7 0 .running :: []
      ∧ (job 7 0 .running).state = .running) := by
  decide +kernel

theorem meets_JobWriteCompletes :
    ((withJobs [job 6 2 .finished, job 7 0 .running] (some (.write write0)) Device.reset).grants (.rotating .blockEngine) = true
      ∧ (withJobs [job 6 2 .finished, job 7 0 .running] (some (.write write0)) Device.reset).engine.request = some (.write write0)
      ∧ (withJobs [job 6 2 .finished, job 7 0 .running] (some (.write write0)) Device.reset).engine.jobs
        = [job 6 2 .finished] ++ job 7 0 .running :: []
      ∧ (∀ k ∈ [job 6 2 .finished], k.state ≠ .running) ∧ (job 7 0 .running).state = .running
      ∧ (job 7 0 .running).progress + 1 ≠ (job 7 0 .running).rect.width * (job 7 0 .running).rect.height)
    ∧ (job 7 1 .running).progress + 1 = (job 7 1 .running).rect.width * (job 7 1 .running).rect.height
    ∧ ((withJobs [job 7 0 .running] (some (.read ⟨1, 0⟩)) Device.reset).engine.request = some (.read ⟨1, 0⟩)) := by
  decide +kernel

theorem meets_JobEndOffered :
    ((withJobs [job 6 2 .finished, job 7 1 .aborted] none (records 15 Device.reset)).engine.jobs
        = [job 6 2 .finished] ++ job 7 1 .aborted :: []
      ∧ (∀ k ∈ [job 6 2 .finished], k.id ≠ (job 7 1 .aborted).id)
      ∧ (withJobs [job 6 2 .finished, job 7 1 .aborted] none (records 15 Device.reset)).control.completions.length < 16
      ∧ 16 ≤ (withJobs [job 6 2 .finished, job 7 1 .aborted] none (records 16 Device.reset)).control.completions.length)
    ∧ Device.reset.scan.state = .stopped ∧ (scanning .running none Device.reset).scan.state ≠ .stopped := by decide +kernel

theorem meets_QueuesRead :
    (Device.reset.pins.resetN = true ∧ Device.reset.control.responses = [] ∧ Device.reset.control.completions = []
      ∧ Device.reset.headsWait)
    ∧ (0 + 1 < (responseWords ⟨0, .ok, 0x13, []⟩).length ∧ (responseWords ⟨0, .ok, 0x13, []⟩).length ≤ 1 + 1)
    ∧ ((records 1 Device.reset).control.completions = .jobEnd h1 0 .done :: [] ∧ (records 1 Device.reset).headsWait
      ∧ (records 1 Device.reset).control.completionRead = 0)
    ∧ ([0, 0, 0, 0, 0, (0 : Word)].length ≤ 6 ∧ inUse.queueLaw ∧ inUse.staging.state = .opened
      ∧ inUse.control.assembly = .idle)
    ∧ ((records 1 Device.reset).pins.resetN = true
      ∧ { Device.reset with
          control := { ControlPort.reset with responses := [⟨0, .ok, 0x13, []⟩] } }.control.responses
        = ⟨0, .ok, 0x13, []⟩ :: [])
    ∧ (crowded.waitCause = .frameStoreRead ∧ headDue.waitCause = .none ∧ Device.reset.control.commands = [])
    ∧ (waitClass ⟨0, 0x1304, []⟩ = .staging ∧ waitClass ⟨0, 0x3908, []⟩ = .job 1 ∧ waitClass ⟨0, 0x0801, []⟩ = .unclassed
      ∧ ([] : List Word).length + 1 < admissionLength 0x1304 ∧ admissionLength 0x0801 ≤ ([] : List Word).length + 1) := by
  unfold Device.headsWait Device.queueLaw; decide +kernel

theorem meets_EnableSetReplaced : Device.reset.pins.resetN = true := by decide +kernel

theorem meets_EventsLatchedAndCleared : Event.portError 0 ≠ Event.portError 1 ∧ Device.reset.pins.resetN = true := by
  decide +kernel

theorem meets_BlendPerChannel : (16 : Nat) ≤ 16 ∧ (0 : Nat) ≤ 16 := by decide

theorem meets_SceneResetResult :
    (timed 0).takesCommands = true ∧ declares 0x01 1 = true ∧ (((timed 0).port 0).state.inProgress = true)
    ∧ ((timed 0).port 1).state.inProgress = false ∧ (∀ n, ((timed 0).port n).writeRequest = none)
    ∧ ((writing 2 false (one .live .double .none)).takesCommands = true
      ∧ ((writing 2 false (one .live .double .none)).port 0).writeRequest = some write0
      ∧ ((writing 2 false (one .live .double .none)).port 0).state.inProgress = true
      ∧ (writing 2 false (one .live .double .none)).grants (.rotating (.port 0)) = true
      ∧ Memory.wf (writing 2 false (one .live .double .none)).store ∧ (⟨2, 0⟩ : PixelPos) ≠ write0.pos)
    ∧ (reading (writing 2 false (one .live .double .none))).grants (.rotating (.port 0)) = false := by decide +kernel

theorem meets_DeviceResetResult :
    heldInReset.pins.resetN = false ∧ (timed 0).pins.resetN = true ∧ (∀ n, ((timed 0).port n).writeRequest = none)
    ∧ (timed 0).engine.request = none
    ∧ ((writing 2 false Device.reset).pins.resetN = true
      ∧ ((writing 2 false Device.reset).port 0).writeRequest = some write0
      ∧ (writing 2 false Device.reset).grants (.rotating (.port 0)) = true)
    ∧ ((withJobs [job 7 0 .running] (some (.write write0)) Device.reset).engine.request = some (.write write0)
      ∧ (withJobs [job 7 0 .running] (some (.write write0)) Device.reset).grants (.rotating .blockEngine) = true)
    ∧ ((reading (writing 2 false Device.reset)).grants (.rotating (.port 0)) = false
      ∧ Memory.wf (writing 2 false Device.reset).store ∧ (⟨2, 0⟩ : PixelPos) ≠ write0.pos) := by decide +kernel

/-! ## The laws hold in a device in use, and a step leads on from it -/

theorem inUse_steps : ∃ t, step ⟨inUse, [.pixelPeriod]⟩ = .next t := ⟨_, rfl⟩

theorem meets_StoreLawKept : inUse.storeLaw := by unfold Device.storeLaw; decide +kernel

theorem meets_QueueLawKept : inUse.queueLaw := by unfold Device.queueLaw; decide +kernel

theorem meets_SlabLawKept : inUse.slabLaw := by unfold Device.slabLaw; decide +kernel

theorem meets_OrderLawKept : inUse.orderLaw := by
  refine ⟨by decide +kernel, by decide +kernel, by decide +kernel, by decide +kernel, ?_, fun h => ?_⟩
  · unfold Device.namesState; decide +kernel
  · have ho : inUse.layers.order = [h1] := by decide +kernel
    have hs : ∀ i, ((inUse.surface i).state == .live || (inUse.surface i).state == .closing) = true ↔ i = 0 := by
      decide +kernel
    rw [ho, List.mem_singleton]
    refine ⟨fun e => by rw [e]; exact ⟨by decide +kernel, by decide +kernel⟩, fun e => ?_⟩
    have h0 := (hs h.slot).mp e.2
    have hg := e.1
    rw [h0] at hg
    obtain ⟨slot, generation⟩ := h
    cases h0
    exact congrArg _ hg.symm

theorem meets_BindingLawKept : busyClose.bindingLaw := busyClose_bindingLaw

theorem meets_IntervalLawKept : (timed 5).intervalLaw := by
  intro n i hn
  fin_cases n
  · cases hn; decide
  · cases hn
  · cases hn
  · cases hn

theorem meets_QueryPoolResult : inUse.takesCommands = true ∧ declares 0x01 1 = true ∧ inUse.slabLaw :=
  ⟨by decide +kernel, by decide, meets_SlabLawKept⟩

end Sys2Proof.Tests
end

