-- ==== Sys2Proof/Proofs/Background.lean ====
section
/-! SET_BACKGROUND (R46): what it does at the head of the command queue, and where the pending background goes. -/

namespace Sys2Proof.Machine

/-- A staging-class command executes only while the staging set is OPEN (R43). -/
theorem classReady_staging_iff (d : Device) : d.classReady .staging = true ↔ d.staging.state = .opened :=
  beq_iff_eq

/-- SET_BACKGROUND at the head of the command queue, with its one parameter word. -/
theorem runCommand_setBackground (d : Device) (colour : Word) :
    runCommand .setBackground [colour] d
      = ({ d with staging := { d.staging with background := colour, dirty := true } }, some (okReply [])) := rfl

/-- A whole SET_BACKGROUND that executes as it is written: no colour is refused. -/
theorem exec_setBackground (s : State) (low : Byte) (colour : Word) (hs : s.dev.takesCommands = true)
    (hl : declares low 2 = true) (ho : s.dev.staging.state = .opened) :
    exec (.setBackground low [colour]) s = .next (s.withDevice (Device.answering
      { s.dev with staging := { s.dev.staging with background := colour, dirty := true } } 0x12 (okReply []))) :=
  exec_command .setBackground low [colour] s hs hl rfl ((classReady_staging_iff s.dev).2 ho) _ _
    (runCommand_setBackground s.dev colour)

/-- The batch apply commits the pending background (R52, R63). -/
theorem applyBatch_background (d : Device) (idle : Bool) :
    (d.applyBatch idle).layers.background = d.staging.background := by
  unfold Device.applyBatch; rfl

/-- Settles O21: the executing command is an instance of `exec_command`, and the batch apply copies the background. -/
theorem setBackgroundResult : Obligations.SetBackgroundResult :=
  ⟨exec_setBackground, applyBatch_background⟩

end Sys2Proof.Machine
end

