-- ==== Sys2Proof/Proofs/Blend.lean ====
section
/-! The blend (R71): a pixel as its three channels (Table 11-1), and what the weighted mean of a channel can be. -/

namespace Sys2Proof.Machine

/-! ## A pixel as its channels -/

/-- A field of `len` bits stays below `2^len`. -/
theorem fieldOf_lt (w : Word) (lo len : Nat) : fieldOf w lo len < 2^len := (w.extractLsb' lo len).isLt

/-- Channels that fit their fields read back from the pixel that carries them. -/
theorem fieldOf_channels (r g b : Nat) (hr : r < 32) (hg : g < 64) (hb : b < 32) :
    fieldOf (bitsAt r 11 ||| bitsAt g 5 ||| bitsAt b 0) 11 5 = r
    ∧ fieldOf (bitsAt r 11 ||| bitsAt g 5 ||| bitsAt b 0) 5 6 = g
    ∧ fieldOf (bitsAt r 11 ||| bitsAt g 5 ||| bitsAt b 0) 0 5 = b := by
  simp only [fieldOf_eq, pack r g b hr hg hb]
  omega

/-- A pixel is its three channels side by side: they cover all of its bits. -/
theorem channels_fieldOf (p : Pixel) :
    bitsAt (fieldOf p 11 5) 11 ||| bitsAt (fieldOf p 5 6) 5 ||| bitsAt (fieldOf p 0 5) 0 = p := by
  apply BitVec.eq_of_toNat_eq
  rw [pack _ _ _ (fieldOf_lt p 11 5) (fieldOf_lt p 5 6) (fieldOf_lt p 0 5)]
  simp only [fieldOf_eq]
  omega

/-! ## One channel -/

/-- A weighted mean does not pass a bound that both its values keep. -/
theorem blendChannel_lt (o t b n : Nat) (ho : o ≤ 16) (ht : t < n) (hb : b < n) : blendChannel o t b < n := by
  have hmean : o * t + (16 - o) * b ≤ 16 * (n - 1) := calc
    o * t + (16 - o) * b ≤ o * (n - 1) + (16 - o) * (n - 1) :=
      Nat.add_le_add (Nat.mul_le_mul_left _ (by omega)) (Nat.mul_le_mul_left _ (by omega))
    _ = 16 * (n - 1) := by rw [← Nat.add_mul, Nat.add_sub_cancel' ho]
  unfold blendChannel
  omega

@[simp] theorem blendChannel_opaque (t b : Nat) : blendChannel 16 t b = t := by simp [blendChannel]

@[simp] theorem blendChannel_transparent (t b : Nat) : blendChannel 0 t b = b := by simp [blendChannel]

/-- A blended field still fits the field. -/
theorem blendChannel_fieldOf_lt (o : Nat) (t b : Pixel) (lo len : Nat) (ho : o ≤ 16) :
    blendChannel o (fieldOf t lo len) (fieldOf b lo len) < 2^len :=
  blendChannel_lt o _ _ _ ho (fieldOf_lt t lo len) (fieldOf_lt b lo len)

/-! ## The blend -/

/-- No channel of a blend carries into its neighbour: each reads back as the blend of that channel alone. -/
theorem fieldOf_blend (o : Nat) (t b : Pixel) (ho : o ≤ 16) :
    fieldOf (blend o t b) 11 5 = blendChannel o (fieldOf t 11 5) (fieldOf b 11 5)
    ∧ fieldOf (blend o t b) 5 6 = blendChannel o (fieldOf t 5 6) (fieldOf b 5 6)
    ∧ fieldOf (blend o t b) 0 5 = blendChannel o (fieldOf t 0 5) (fieldOf b 0 5) :=
  fieldOf_channels _ _ _ (blendChannel_fieldOf_lt o t b 11 5 ho) (blendChannel_fieldOf_lt o t b 5 6 ho)
    (blendChannel_fieldOf_lt o t b 0 5 ho)

@[simp] theorem blend_opaque (t b : Pixel) : blend 16 t b = t := by
  simp only [blend, blendChannel_opaque, channels_fieldOf]

@[simp] theorem blend_transparent (t b : Pixel) : blend 0 t b = b := by
  simp only [blend, blendChannel_transparent, channels_fieldOf]

/-- Settles O30: each channel of the blend reads back as the mean of that channel alone, which fits the field. -/
theorem blendPerChannel : Obligations.BlendPerChannel := by
  intro o t b ho
  obtain ⟨hred, hgreen, hblue⟩ := fieldOf_blend o t b ho
  exact ⟨hred, hgreen, hblue, Nat.le_of_lt_succ (fieldOf_lt _ 11 5), Nat.le_of_lt_succ (fieldOf_lt _ 5 6),
    Nat.le_of_lt_succ (fieldOf_lt _ 0 5), blend_opaque t b, blend_transparent t b⟩

end Sys2Proof.Machine
end

