-- ==== Sys2Proof/Proofs/EventUnit.lean ====
section
/-! The event unit (spec/10), one bit at a time: what each position of the event set reads, what latching, clearing and
enabling do to it, and the two accesses that write the unit. -/

namespace Sys2Proof.Machine

/-! ## The positions of the members -/

/-- A latched member stands above the two level members and within the eleven positions (Table 11-14). -/
theorem eventBit_bounds (e : Event) : 2 ≤ eventBit e ∧ eventBit e < 11 := by
  cases e with
  | portError n => have := n.isLt; simp only [eventBit]; omega
  | _ => decide

theorem eventBit_lt_word (e : Event) : eventBit e < 16 := lt_trans (eventBit_bounds e).2 (by decide)

/-- Two latched members never share a position. -/
theorem eventBit_inj (e f : Event) : eventBit e = eventBit f ↔ e = f := by
  refine ⟨fun h => ?_, congrArg eventBit⟩
  cases e with
  | portError n =>
    have := n.isLt
    cases f with
    | portError m => rw [Fin.ext (Nat.add_left_cancel h)]
    | _ => simp only [eventBit] at h; omega
  | _ =>
    cases f with
    | portError m => have := m.isLt; simp only [eventBit] at h; omega
    | _ => revert h; decide

/-- The member mask covers the positions below 11. -/
theorem memberMask_getLsbD (k : Nat) : memberMask.getLsbD k = decide (k < 11) := by
  have hones : memberMask = (BitVec.allOnes 11).setWidth 16 := by decide
  rw [hones, BitVec.getLsbD_setWidth, BitVec.getLsbD_allOnes, Bool.eq_iff_iff]
  simp only [Bool.and_eq_true, decide_eq_true_eq]
  omega

/-- The latched mask covers the positions of the member mask but the two of the level members. -/
theorem latchedMask_getLsbD (k : Nat) : latchedMask.getLsbD k = (decide (2 ≤ k) && decide (k < 11)) := by
  have hones : latchedMask = (BitVec.allOnes 9).setWidth 16 <<< 2 := by decide
  rw [hones, BitVec.getLsbD_shiftLeft, BitVec.getLsbD_setWidth, BitVec.getLsbD_allOnes, Bool.eq_iff_iff]
  simp only [Bool.and_eq_true, decide_eq_true_eq, Bool.not_eq_true', decide_eq_false_iff_not]
  omega

/-- The bits of a flag at its position. -/
theorem flagAt_getLsbD (b : Bool) (m k : Nat) (hm : m < 16) : (flagAt b m).getLsbD k = (b && decide (k = m)) := by
  cases b with
  | false => simp [flagAt, bitsAt]
  | true => rw [flagAt, Bool.toNat_true, bitsAt_one_getLsbD m k hm, Bool.true_and]

/-! ## The event set (R172, R173) -/

/-- The event set at any position: a level member at 0 and at 1, the latched flags from 2 to 10, nothing above. -/
theorem eventWord_getLsbD (d : Device) (k : Nat) : d.eventWord.getLsbD k =
    (d.events.latched.getLsbD k && (decide (2 ≤ k) && decide (k < 11))
      || d.respPending && decide (k = 0) || d.complPending && decide (k = 1)) := by
  simp only [Device.eventWord, BitVec.getLsbD_or, BitVec.getLsbD_and, latchedMask_getLsbD,
    flagAt_getLsbD _ 0 k (by omega), flagAt_getLsbD _ 1 k (by omega)]

theorem eventWord_zero_iff (d : Device) : d.eventWord.getLsbD 0 = true ↔ d.control.responses ≠ [] := by
  rw [eventWord_getLsbD]; simp [Device.respPending]

theorem eventWord_one_iff (d : Device) : d.eventWord.getLsbD 1 = true ↔ d.control.completions ≠ [] := by
  rw [eventWord_getLsbD]; simp [Device.complPending]

/-- A latched member reads as its flag. -/
theorem eventWord_eventBit (d : Device) (e : Event) : d.eventWord.getLsbD (eventBit e) = d.latchedFlag e := by
  obtain ⟨hlow, hhigh⟩ := eventBit_bounds e
  simp [eventWord_getLsbD, Device.latchedFlag, hlow, hhigh, show eventBit e ≠ 0 by omega,
    show eventBit e ≠ 1 by omega]

/-- A position without a member reads 0. -/
theorem eventWord_no_member (d : Device) (k : Nat) (hk : 11 ≤ k) : d.eventWord.getLsbD k = false := by
  simp [eventWord_getLsbD, show ¬ k < 11 by omega, show k ≠ 0 by omega, show k ≠ 1 by omega]

/-! ## Latching (R174) -/

/-- Latching sets the member's own flag and leaves every other one. -/
theorem latch_latchedFlag (d : Device) (e f : Event) :
    (d.latch e).latchedFlag f = (d.latchedFlag f || decide (f = e)) := by
  simp only [Device.latchedFlag, Device.latch_events, BitVec.getLsbD_or, bitsAt_one_getLsbD _ _ (eventBit_lt_word e),
    eventBit_inj]

/-! ## IRQ_N (R178) -/

/-- With RESET_N high, IRQ_N is low exactly when some member is both set and enabled. -/
theorem irqN_low_iff (d : Device) (hr : d.pins.resetN = true) :
    d.irqN = false ↔ ∃ k < 11, d.eventWord.getLsbD k = true ∧ d.events.enabled.getLsbD k = true := by
  have hlow : d.irqN = false ↔ d.eventWord &&& d.events.enabled &&& memberMask ≠ 0#16 := by simp [Device.irqN, hr]
  rw [hlow, Ne, BitVec.zero_iff_eq_false, not_forall]
  simp only [Bool.not_eq_false, BitVec.getLsbD_and, memberMask_getLsbD, Bool.and_eq_true, decide_eq_true_eq, and_comm]

/-! ## The accesses that write the unit -/

/-- EVENT_WRITE with RESET_N high (R175). -/
theorem exec_eventWrite (s : State) (w : Word) (hr : s.dev.pins.resetN = true) :
    exec (.eventWrite w) s = .next (s.withDevice (s.dev.written.clearEvents w)) := by
  change execEventWrite w s = _
  rw [execEventWrite, if_pos hr]

/-- EVENT_ENABLE_WRITE with RESET_N high (R177). -/
theorem exec_eventEnableWrite (s : State) (w : Word) (hr : s.dev.pins.resetN = true) :
    exec (.eventEnableWrite w) s = .next (s.withDevice (s.dev.written.setEnables w)) := by
  change execEventEnableWrite w s = _
  rw [execEventEnableWrite, if_pos hr]

/-- A member's flag after a write to EVENT: kept, unless its position was written as 1. -/
theorem clearEvents_latchedFlag (d : Device) (w : Word) (e : Event) :
    (d.clearEvents w).latchedFlag e = (d.latchedFlag e && !w.getLsbD (eventBit e)) := by
  simp [Device.latchedFlag, eventBit_lt_word e]

/-- A write of 0000h to EVENT clears no flag. -/
theorem clearEvents_zero_latched (d : Device) : (d.clearEvents 0).events.latched = d.events.latched :=
  BitVec.and_allOnes

/-- EVENT_ENABLE reads back the enable set. -/
theorem readLocation_eventEnable (d : Device) (hr : d.pins.resetN = true) :
    d.readLocation .eventEnable = d.events.enabled := by
  rw [Device.readLocation, if_pos hr]

/-- Of the written enables, IRQ_N sees the eleven member positions. -/
theorem setEnables_irqN_low_iff (d : Device) (w : Word) (hr : d.pins.resetN = true) :
    (d.setEnables w).irqN = false ↔ ∃ k < 11, d.eventWord.getLsbD k = true ∧ w.getLsbD k = true := by
  rw [irqN_low_iff (d.setEnables w) hr]
  refine exists_congr fun k => and_congr_right fun hk => ?_
  have henabled : (d.setEnables w).events.enabled.getLsbD k = w.getLsbD k := by
    simp [memberMask_getLsbD, hk]
  rw [henabled]
  rfl

/-! ## The obligations -/

/-- Settles O50: the device of the statement is the one that EVENT_ENABLE_WRITE leaves, and IRQ_N masks its enables with
the member positions. -/
theorem enableSetReplaced : Obligations.EnableSetReplaced := by
  rintro s w hr d rfl
  exact ⟨exec_eventEnableWrite s w hr, readLocation_eventEnable _ hr, fun _ => rfl, fun _ => rfl,
    setEnables_irqN_low_iff s.dev.written w hr⟩

/-- Settles O51: the event set is read position by position, and a write to EVENT is followed flag by flag. -/
theorem eventsLatchedAndCleared : Obligations.EventsLatchedAndCleared := by
  refine ⟨fun d e => ⟨?set, fun f hf => ?kept, rfl, rfl, eventWord_zero_iff d, eventWord_one_iff d,
    eventWord_eventBit d, fun _ => rfl, eventWord_no_member d⟩, rfl, fun s w hr => ?cleared⟩
  case set => simp [latch_latchedFlag]
  case kept => simp [latch_latchedFlag, hf]
  case cleared =>
    refine ⟨(s.dev.clearEvents w).events.latched, exec_eventWrite s w hr, clearEvents_latchedFlag s.dev w, ?_⟩
    rintro rfl
    exact clearEvents_zero_latched s.dev

end Sys2Proof.Machine
end

section
/-! What a row can do to the device: every row answers a next state with the same waiting commands, and keeps each law of
Safety by itself; so does every step (spec/00 0.4). -/

namespace Sys2Proof.Machine

/-! ## Rows that are not commands -/

theorem kept_effect {d e : Device} (h : Effect d e) : LawsKept d e := h.toLawsKept

/-- A change that is made only when its event occurs (log 2). -/
theorem kept_when {d e : Device} (p : Prop) [Decidable p] (h : LawsKept d e) : LawsKept d (if p then e else d) :=
  kept_ite p h (.refl d)

/-- An event that ends with the run of the heads it releases (log 22). -/
theorem kept_settled {d e : Device} (h : LawsKept d e) : LawsKept d e.settle := h.trans (kept_settle e)

/-- SnPRST_N falling ends what is in progress, then holds the port (R135). -/
theorem kept_portReset (d : Device) (n : PortNum) :
    LawsKept d (if (d.port n).held then d
      else (if (d.port n).state.inProgress then d.endEarly n .portReset else d).setPort n
        { (if (d.port n).state.inProgress then d.endEarly n .portReset else d).port n with
          held := true, interval := none }) := by
  have hended : Effect d (if (d.port n).state.inProgress then d.endEarly n .portReset else d) :=
    Effect.ite _ (fun _ => effect_endEarly d n .portReset) fun _ => .refl d
  exact kept_ite _ (.refl d) (kept_effect (effect_setPort' d _ n _ hended (.inl rfl) (.inr (.inl rfl))))

/-- SnPRST_N rising changes neither the binding nor the idle interval of the port (R135). -/
theorem kept_portResetRelease (d : Device) (n : PortNum) :
    LawsKept d (if (d.port n).held then d.setPort n { d.port n with held := false, state := .idle } else d) :=
  kept_when _ (kept_effect (effect_setPort d n _ (.inl rfl) (.inl rfl)))

theorem kept_pixelPeriod (d : Device) : LawsKept d d.pixelPeriod := by
  unfold Device.pixelPeriod
  split
  · exact .refl d
  · exact kept_effect (effect_enterPeriod d _)

/-! ## Every row -/

/-- Every row completes, leaves the queue of waiting commands alone, and keeps each law. -/
theorem exec_completes_kept (i : Instr) (s : State) :
    ∃ d, exec i s = .next (s.withDevice d) ∧ LawsKept s.dev d := by
  cases i with
  | openSurface low params | closeSurface low params | querySurface low params | queryPool low params
  | pixelRead low params | setPosition low params | setLook low params | setBackground low params
  | commit low params | discard low params | queryStaging low params | place low params | unplace low params
  | queryOrder low params | panelSetup low params | panelStart low params | panelStop low params
  | queryPanel low params | post low params | bind low params | unbind low params | portConfig low params
  | queryPort low params | fill low params | copyForward low params | sceneReset low params
  | unknownOpcode opcode low params => exact ⟨_, rfl, kept_sendCommand s.dev _ low params⟩
  | pixelReadComplete => exact ⟨_, rfl, kept_when _ (kept_settled (kept_completePixelRead _))⟩
  | cmdWord w => exact ⟨_, rfl, kept_writeCmd s.dev w⟩
  | respRead => exact ⟨_, rfl, kept_readResp s.dev⟩
  | complRead => exact ⟨_, rfl, kept_readCompl s.dev⟩
  | ack value =>
    exact ⟨_, rfl, kept_when _ (kept_settled ((kept_setData s.dev none).trans (kept_acknowledge _ value)))⟩
  | eventWrite w | eventEnableWrite w | ignoredWrite l w =>
    exact ⟨_, rfl, kept_when _ ⟨id, id, id, id, id, id, id⟩⟩
  | deviceReset =>
    exact ⟨_, rfl, kept_when _ ((kept_effect (effect_grantFirst s.dev fun _ => true)).trans (kept_inReset _))⟩
  | deviceResetRelease => exact ⟨_, rfl, ⟨id, id, id, id, id, id, id⟩⟩
  | portReset n => exact ⟨_, rfl, kept_portReset s.dev n⟩
  | portResetRelease n => exact ⟨_, rfl, kept_portResetRelease s.dev n⟩
  | markedWord n w => exact ⟨_, rfl, kept_when _ (kept_effect (effect_takeMarked s.dev n w))⟩
  | unmarkedWord n w => exact ⟨_, rfl, kept_when _ (kept_effect (effect_takeUnmarked s.dev n w))⟩
  | pixelWriteComplete n =>
    exact ⟨_, rfl, kept_when _ (kept_settled (kept_effect (effect_completeWrite s.dev n)))⟩
  | idleTimeout n => exact ⟨_, rfl, kept_when _ (kept_effect (effect_endEarly s.dev n .timeout))⟩
  | jobReadComplete => exact ⟨_, rfl, kept_when _ (kept_effect (effect_completeJobRead s.dev))⟩
  | jobWriteComplete =>
    exact ⟨_, rfl, kept_when _ (kept_settled (kept_effect (effect_completeJobWrite s.dev)))⟩
  | frameBoundary => exact ⟨_, rfl, kept_when _ (kept_settled (kept_effect (effect_frameBoundary s.dev)))⟩
  | pixelPeriod => exact ⟨_, rfl, kept_when _ (kept_pixelPeriod s.dev)⟩
  | scanReadComplete => exact ⟨_, rfl, kept_when _ (kept_effect (effect_completeScanRead s.dev))⟩

/-- A step keeps each law: a row by itself, and on an empty queue the tick of the time base (log 6). -/
theorem kept_step {s t : State} (h : step s = .next t) : LawsKept s.dev t.dev := by
  obtain ⟨d, pending⟩ := s
  cases pending with
  | nil => cases h; exact kept_tick d
  | cons i rest =>
    obtain ⟨e, he, hkept⟩ := exec_completes_kept i ⟨d, rest⟩
    cases he.symm.trans h
    exact hkept

/-! ## The obligations -/

/-- Settles O54: the step keeps each law by itself. -/
theorem storeLawKept : Obligations.StoreLawKept := fun _ _ hlaw h => (kept_step h).store hlaw

/-- Settles O55: the step keeps each law by itself. -/
theorem queueLawKept : Obligations.QueueLawKept := fun _ _ hlaw h => (kept_step h).queue hlaw

/-- Settles O56: the step keeps each law by itself. -/
theorem slabLawKept : Obligations.SlabLawKept := fun _ _ hlaw h => (kept_step h).slab hlaw

/-- Settles O57: the step keeps each law by itself. -/
theorem orderLawKept : Obligations.OrderLawKept := fun _ _ hlaw h => (kept_step h).order hlaw

/-- Settles O58: the step keeps each law by itself. -/
theorem bindingLawKept : Obligations.BindingLawKept := fun _ _ hlaw h => (kept_step h).binding hlaw

/-- Settles O59: the step keeps each law by itself. -/
theorem intervalLawKept : Obligations.IntervalLawKept := fun _ _ hlaw h => (kept_step h).interval hlaw

/-- Settles O1: by the definition of a step on a queue that is not empty. -/
theorem stepRunsFrontCommand : Obligations.StepRunsFrontCommand := fun _ _ _ => rfl

/-- Settles O2: each row completes with the queue of waiting commands as it was. -/
theorem everyCommandCompletes : Obligations.EveryCommandCompletes := fun c s =>
  let ⟨d, hd, _⟩ := exec_completes_kept c s
  ⟨d, hd⟩

end Sys2Proof.Machine
end

section
/-! Reset (R171) and the time base (log 6): what the device reads as right after reset, that the laws of Safety hold
there, what the control port does while RESET_N is low, and the step on an empty queue. -/

namespace Sys2Proof.Machine

/-! ## The device right after reset -/

@[simp] theorem reset_surface (i : Slot) : Device.reset.surface i = Surface.freed 0 := by
  simp [Device.reset, Device.surface]

@[simp] theorem reset_port (n : PortNum) : Device.reset.port n = Port.reset false := by
  simp [Device.reset, Device.port]

@[simp] theorem reset_freeSlabs : Device.reset.freeSlabs = List.finRange 256 := by
  simp only [Device.reset, allSlabs]

@[simp] theorem freed_heldSlabs (g : Byte) : (Surface.freed g).heldSlabs = [] := rfl

/-- A FREE slot has no valid handle, so no handle names a surface that is open. -/
theorem reset_namesState (h : Handle) (test : SlotState → Bool) (hfree : test .free = false) :
    ¬ Device.reset.namesState h test := by
  rintro ⟨_, hopen⟩
  rw [reset_surface] at hopen
  exact absurd hopen (by simp [Surface.freed, hfree])

/-- Each slab stands once in the free slab set, and no slot holds one. -/
theorem reset_slabCount (k : Slab) : Device.reset.slabCount k = 1 := by
  have hfree : (List.finRange 256).count k = 1 :=
    List.count_eq_one_of_mem (List.nodup_finRange 256) (List.mem_finRange k)
  simp only [slabCount_eq, reset_freeSlabs, reset_surface, freed_heldSlabs, hfree, List.count_nil,
    Finset.sum_const_zero, Nat.add_zero]

theorem reset_slabLaw : Device.reset.slabLaw :=
  ⟨reset_slabCount, fun i _ => by rw [reset_surface, freed_heldSlabs],
    by rw [reset_freeSlabs]; exact List.pairwise_lt_finRange 256⟩

theorem reset_queueLaw : Device.reset.queueLaw :=
  ⟨Nat.zero_le _, Nat.zero_le _, Nat.zero_le _, Nat.zero_le _, Nat.zero_le _, fun h => nomatch h⟩

theorem reset_orderLaw : Device.reset.orderLaw :=
  ⟨List.nodup_nil, Nat.zero_le _, List.nodup_nil, Nat.zero_le _, fun _ hmem => absurd hmem List.not_mem_nil,
    fun h => ⟨fun hmem => absurd hmem List.not_mem_nil, fun hnames => absurd hnames (reset_namesState h _ rfl)⟩⟩

theorem reset_bindingLaw : Device.reset.bindingLaw := by
  have hunbound : ∀ n h, (Device.reset.port n).binding ≠ some h := fun n h => by simp [Port.reset]
  exact ⟨fun m _ h hm _ => absurd hm (hunbound m h), fun n h hn => absurd hn (hunbound n h)⟩

theorem reset_intervalLaw : Device.reset.intervalLaw := by
  intro n i hi
  rw [reset_port] at hi
  exact nomatch hi

theorem reset_tagLaw : Device.reset.tagLaw := fun i => by
  rw [reset_surface]
  exact freed_tagged 0

/-- Settles O60: with every slot FREE, every port unbound and every queue empty, each law is about nothing but the free
slab set. -/
theorem lawsHoldAtReset : Obligations.LawsHoldAtReset :=
  ⟨⟨List.Pairwise.nil, fun _ h => nomatch h⟩, reset_queueLaw, reset_slabLaw, reset_orderLaw, reset_bindingLaw,
    reset_intervalLaw⟩

/-- Settles O4: the reset values, read location by location and field by field. -/
theorem resetReads : Obligations.ResetReads := by
  refine ⟨rfl, rfl, rfl, rfl, rfl, rfl, rfl, rfl, rfl, ?ready, rfl, rfl, ?counters, ?slots, rfl, rfl⟩
  case ready => intro n; simp [State.reset, Device.ready, Port.reset]; rfl
  case counters => intro n; simp [State.reset, Port.reset]
  case slots => intro i; simp [State.reset, Surface.freed]

/-! ## The control port while RESET_N is low -/

theorem readLocation_inReset (d : Device) (m : Location) (hr : d.pins.resetN = false) : d.readLocation m = 0 := by
  simp [Device.readLocation, hr]

/-- Settles O5: each access asks for RESET_N high first. -/
theorem accessesInReset : Obligations.AccessesInReset := by
  intro s w l
  refine ⟨fun hr => ?low, fun hr => ?high⟩
  case low =>
    have hn : ¬ s.dev.pins.resetN = true := by simp [hr]
    have hkeep : ∀ d : Device, d = s.dev → Host.Outcome.next (ρ := Refusal) (φ := Fault) (s.withDevice d) = .next s := by
      rintro d rfl; rfl
    exact ⟨hkeep _ (if_neg hn), hkeep _ (if_neg hn), hkeep _ (if_neg hn), hkeep _ (if_neg hn), hkeep _ (if_neg hn),
      hkeep _ (if_neg hn), hkeep _ (if_neg hn), fun m => readLocation_inReset s.dev m hr⟩
  case high => exact congrArg (fun d => Host.Outcome.next (s.withDevice d)) (if_pos hr)

/-! ## The step on an empty queue -/

/-- IDLE_TIMEOUT (R128). -/
theorem exec_idleTimeout (s : State) (n : PortNum) :
    exec (.idleTimeout n) s
      = .next (s.withDevice (if s.dev.mayExpire n then s.dev.endEarly n .timeout else s.dev)) := rfl

/-- What must expire may expire (R128). -/
theorem mayExpire_of_mustExpire (d : Device) (n : PortNum) (h : d.mustExpire n = true) : d.mayExpire n = true := by
  obtain ⟨i, hi, hset, htime⟩ := (mustExpire_iff d n).1 h
  simp only [Device.mayExpire, hi, Bool.and_eq_true, bne_iff_ne, decide_eq_true_eq]
  exact ⟨hset, by omega⟩

theorem expire_of_not_due (d : Device) (n : PortNum) (h : d.mustExpire n = false) : expire d n = d := by
  simp [expire, h]

/-- An expiry leaves what is due on the other ports, and nothing on its own. -/
theorem mustExpire_endEarly (d : Device) (n m : PortNum) (c : PortError) :
    (d.endEarly n c).mustExpire m = if m = n then false else d.mustExpire m := by
  by_cases hm : m = n
  · simp [Device.mustExpire, endEarly_interval, hm]
  · simp [Device.mustExpire, endEarly_interval, endEarly_timeBase, hm]

theorem foldl_expire_of_not_due (l : List PortNum) (d : Device) (h : ∀ n, d.mustExpire n = false) :
    l.foldl expire d = d := by
  induction l with
  | nil => rfl
  | cons n l ih => rw [List.foldl_cons, expire_of_not_due d n (h n), ih]

/-- Of ports taken in order, the lowest one that is due expires first. -/
theorem foldl_expire_first (l : List PortNum) (hl : l.Pairwise (· < ·)) (d : Device) (n : PortNum) (hn : n ∈ l)
    (hdue : d.mustExpire n = true) (hfirst : ∀ m < n, d.mustExpire m = false) :
    l.foldl expire d = l.foldl expire (d.endEarly n .timeout) := by
  induction l with
  | nil => exact nomatch hn
  | cons m l ih =>
    obtain ⟨hm, hl⟩ := List.pairwise_cons.1 hl
    rw [List.foldl_cons, List.foldl_cons]
    rcases List.mem_cons.1 hn with rfl | hmem
    · have hgone : (d.endEarly n .timeout).mustExpire n = false := by simp [mustExpire_endEarly]
      rw [expire_of_not_due _ n hgone, expire, if_pos hdue]
    · have hlt := hm n hmem
      have hlater : (d.endEarly n .timeout).mustExpire m = false := by
        simp [mustExpire_endEarly, hlt.ne, hfirst m hlt]
      rw [expire_of_not_due d m (hfirst m hlt), expire_of_not_due _ m hlater, ih hl hmem]

/-- Settles O3: a tick takes the due expiries in port order, and each is the row IDLE_TIMEOUT. -/
theorem emptyQueueTick : Obligations.EmptyQueueTick := by
  intro d due hdue
  have hmust : ∀ n, d.mustExpire n = true ↔ due n := fun n => (mustExpire_iff d n).trans (hdue n).symm
  have hnot : ∀ n, ¬ due n → d.mustExpire n = false := fun n h => by rwa [← hmust, Bool.not_eq_true] at h
  refine ⟨fun hnone => ?none, fun n hn hfirst => ?first⟩
  case none =>
    change Host.Outcome.next (State.withDevice ⟨d, []⟩ d.tick) = _
    rw [tick_eq, foldl_expire_of_not_due allPorts d fun n => hnot n (hnone n)]
    rfl
  case first =>
    have hdue := (hmust n).2 hn
    refine ⟨d.endEarly n .timeout, ?row, ?tick⟩
    case row => rw [exec_idleTimeout, if_pos (mayExpire_of_mustExpire d n hdue)]; rfl
    case tick =>
      change Host.Outcome.next (State.withDevice ⟨d, []⟩ d.tick) = .next (State.withDevice ⟨_, []⟩ (Device.tick _))
      rw [tick_eq, tick_eq, ← foldl_expire_first allPorts (List.pairwise_lt_finRange 4) d n (List.mem_finRange n) hdue
        fun m hm => hnot m (hfirst m hm)]
      rfl

end Sys2Proof.Machine
end

section
/-! The command queue (spec/09 9.2, 9.3): a word written to CMD, a whole command that joins the queue or is dropped, what
an execution reads of the queue, the conditions of a head, and the commands refused by their opcode or their length. -/

namespace Sys2Proof.Machine

/-! ## Command words (Table 11-2) -/

theorem commandWord_toNat (opcode low : Byte) :
    (commandWord opcode low).toNat = opcode.toNat * 0x100 + low.toNat := by
  rw [commandWord, BitVec.toNat_append, ← Nat.shiftLeft_add_eq_or_of_lt low.isLt, Nat.shiftLeft_eq]

theorem lengthField_eq_mod (w : Word) : lengthField w = w.toNat % 16 := by
  simp [lengthField, BitVec.extractLsb'_toNat]

theorem lengthField_low (code low : Byte) : lengthField (commandWord code low) = low.toNat % 16 := by
  rw [lengthField_eq_mod, commandWord_toNat]
  omega

theorem declares_iff (low : Byte) (n : Nat) :
    declares low n = true ↔ low.toNat % 16 = n ∨ n = 1 ∧ low.toNat % 16 = 0 := by
  simp [declares, lengthField_low]

/-- The length for admission, by the number in the length field (Table 9-2). -/
theorem admissionLength_eq (w : Word) :
    admissionLength w = if w.toNat % 16 = 0 then 1 else if w.toNat % 16 ≤ 8 then w.toNat % 16 else 8 := by
  rw [admissionLength, lengthField_eq_mod]

/-- An opcode names a command exactly when it is the command's code (Table 11-3). -/
theorem commandOf_eq_some_iff (code : Byte) (c : Command) : commandOf code = some c ↔ commandCode c = code := by
  refine ⟨fun h => ?_, fun h => by rw [← h, commandOf_commandCode]⟩
  have hfound := List.find?_some h
  exact beq_iff_eq.1 hfound

/-! ## One word (R157, R158) -/

theorem exec_cmdWord (s : State) (w : Word) (hr : s.dev.pins.resetN = true) :
    exec (.cmdWord w) s = .next (s.withDevice (s.dev.written.takeWord w).settle) := by
  change Host.Outcome.next (s.withDevice (s.dev.writeCmd w)) = _
  rw [Device.writeCmd, if_pos hr]

/-- After its first word a command of one word is whole, and a longer one is being collected. -/
theorem collectingAfter_first (w : Word) : collectingAfter (admissionLength w) 1
    = if admissionLength w = 1 then .idle else .collecting (admissionLength w) 1 := by
  have hpos := admissionLength_pos w
  by_cases hone : admissionLength w = 1
  · simp [collectingAfter, hone]
  · simp [collectingAfter, hone, show 1 < admissionLength w by omega]

theorem droppingAfter_first (w : Word) : droppingAfter (admissionLength w) 1
    = if admissionLength w = 1 then .idle else .dropping (admissionLength w) 1 := by
  have hpos := admissionLength_pos w
  by_cases hone : admissionLength w = 1
  · simp [droppingAfter, hone]
  · simp [droppingAfter, hone, show 1 < admissionLength w by omega]

theorem takeWord_idle (d : Device) (w : Word) (ha : d.control.assembly = .idle) : d.takeWord w = d.firstWord w := by
  simp only [Device.takeWord, ha]

/-- A first word whose command fits (R157, R159). -/
theorem firstWord_admitted (d : Device) (w : Word) (hfit : admissionLength w ≤ d.freeWords) :
    d.firstWord w = { d with
      control := { d.control with
        assembly := if admissionLength w = 1 then .idle else .collecting (admissionLength w) 1
        commands := d.control.commands ++ [⟨d.control.nextSeq, w, []⟩]
        nextSeq := d.control.nextSeq + 1 } } := by
  rw [Device.firstWord, if_pos hfit, collectingAfter_first]

/-- A first word whose command does not fit (R157). -/
theorem firstWord_dropped (d : Device) (w : Word) (hfull : d.freeWords < admissionLength w) :
    d.firstWord w = { d with
      control := { d.control with
        assembly := if admissionLength w = 1 then .idle else .dropping (admissionLength w) 1 }
      events := { d.events with latched := d.events.latched ||| 0x0010 } } := by
  rw [Device.firstWord, if_neg (Nat.not_le.2 hfull), droppingAfter_first]
  rfl

/-- Settles O6: the assembly record decides what becomes of the word, and a dropped word releases no head. -/
theorem cmdWordTaken : Obligations.CmdWordTaken := by
  refine ⟨fun s w hr => ⟨fun ha hfit => ?admitted, fun ha hfull hwait => ?dropped, fun total k ha => ?stored,
    fun total k ha hwait => ?discarded⟩, fun w k hk => ?length, fun w older q => appendParam_concat w older q⟩
  case admitted => rw [exec_cmdWord s w hr, takeWord_idle s.dev.written w ha,
      firstWord_admitted s.dev.written w hfit]; rfl
  case dropped =>
    rw [exec_cmdWord s w hr, takeWord_idle s.dev.written w ha, firstWord_dropped s.dev.written w hfull,
      settle_headsWait]
    · rfl
    · exact hwait
  case stored =>
    have ha' : s.dev.written.control.assembly = .collecting total k := ha
    rw [exec_cmdWord s w hr]
    simp only [Device.takeWord, ha', collectingAfter]
    rfl
  case discarded =>
    have ha' : s.dev.written.control.assembly = .dropping total k := ha
    rw [exec_cmdWord s w hr]
    simp only [Device.takeWord, ha', droppingAfter]
    rw [settle_headsWait]
    · rfl
    · exact hwait
  case length => rw [hk]; exact admissionLength_eq w

/-! ## A whole command that waits, or does not fit -/

theorem exec_unknownOpcode (s : State) (opcode low : Byte) (params : List Word) :
    exec (.unknownOpcode opcode low params) s = .next (s.withDevice (s.dev.sendCommand opcode low params)) := rfl

/-- A whole command behind a head that waits, itself included, only joins the queue (R157, R160). -/
theorem sendCommand_waits (d : Device) (code low : Byte) (params : List Word) (hr : d.pins.resetN = true)
    (ha : d.control.assembly = .idle) (hf : framed low params = true) (hfit : params.length + 1 ≤ d.freeWords)
    (hwait : (d.queueing (commandWord code low) params).headsWait) :
    d.sendCommand code low params = d.queueing (commandWord code low) params := by
  have hlen : params.length + 1 = admissionLength (commandWord 0 low) := beq_iff_eq.1 hf
  rw [sendCommand_eq d code low params hr ha hf (hlen ▸ hfit) (queueing_headsWait d _ _ hwait),
    settle_headsWait _ hwait]

/-! ## What an execution reads of the queue (R160, R163) -/

/-- The head executes, and of the queue only the head itself can leave it. -/
theorem executeHead_withQueue (q : QueuedCommand) (d : Device) (o : Option Word) (rest : List QueuedCommand) (k : Byte) :
    executeHead q (d.withQueue o (q :: rest) k) =
      match (headEffect q d).2 with
      | some r =>
        { (headEffect q d).1.withQueue o rest k with
          control := { ((headEffect q d).1.withQueue o rest k).control with
            responses := (headEffect q d).1.control.responses
              ++ [⟨q.seq, r.status, opcodeField q.word0, r.results⟩] } }
      | none => (headEffect q d).1.withQueue o (q :: rest) k := by
  rw [executeHead, headEffect_blind]
  cases (headEffect q d).2 <;> rfl

/-- What an execution does does not depend on the commands behind the head. -/
theorem executeHead_behind (q : QueuedCommand) (d : Device) (o : Option Word) (rest : List QueuedCommand) (k : Byte) :
    executeHead q (d.withQueue o (q :: rest) k) =
      { executeHead q (d.withQueue o [q] k) with
        control := { (executeHead q (d.withQueue o [q] k)).control with
          commands := (executeHead q (d.withQueue o [q] k)).control.commands ++ rest } } := by
  rw [executeHead_withQueue, executeHead_withQueue]
  cases (headEffect q d).2 <;> rfl

/-! ## The conditions of a head (R160, R161) -/

theorem classReady_job_iff (d : Device) (places : Nat) :
    d.classReady (.job places) = true ↔ d.engine.jobs.length + places ≤ 4 := decide_eq_true_iff

/-- All the words of a command are there (R160). -/
theorem complete_iff (q : QueuedCommand) : q.complete = true ↔ admissionLength q.word0 ≤ q.params.length + 1 :=
  decide_eq_true_iff

theorem responseRoom_iff (d : Device) : d.responseRoom = true ↔ d.control.responses.length < 8 := decide_eq_true_iff

theorem headReady_iff (d : Device) (q : QueuedCommand) :
    d.headReady q = true ↔ d.pixelRead = none ∧ admissionLength q.word0 ≤ q.params.length + 1
      ∧ d.control.responses.length < 8 ∧ d.classReady (waitClass q) = true := by
  simp only [Device.headReady, Bool.and_eq_true, Option.isNone_iff_eq_none, complete_iff, responseRoom_iff, and_assoc]

/-- The conditions of a class, each asked of its own class alone. -/
theorem classReady_iff (d : Device) (c : WaitClass) : d.classReady c = true ↔
    (c = .staging → d.staging.state = .opened) ∧ ∀ places, c = .job places → d.engine.jobs.length + places ≤ 4 := by
  cases c with
  | unclassed => simp [Device.classReady]
  | staging => simp [classReady_staging_iff]
  | job places => simp [classReady_job_iff]

/-- The class of a command by the command its opcode names. -/
theorem waitClass_staging (q : QueuedCommand)
    (h : opcodeField q.word0 ∈ ([0x02, 0x10, 0x11, 0x12, 0x13, 0x14, 0x18, 0x19] : List Byte)) :
    waitClass q = .staging := by
  simp only [List.mem_cons, List.not_mem_nil, or_false] at h
  rcases h with h | h | h | h | h | h | h | h <;> rw [waitClass, h] <;> rfl

theorem waitClass_job (q : QueuedCommand) (h : opcodeField q.word0 ∈ ([0x38, 0x39] : List Byte)) :
    waitClass q = .job 1 := by
  simp only [List.mem_cons, List.not_mem_nil, or_false] at h
  rcases h with h | h <;> rw [waitClass, h] <;> rfl

/-- OPEN is job-class only whole and with the fill flag of its mode word (R161). -/
theorem waitClass_open (q : QueuedCommand) (h : opcodeField q.word0 = 0x01) :
    waitClass q = match q.params with
      | mode :: _ =>
        if admissionLength q.word0 = 8 ∧ mode.getLsbD 8 then .job (if fieldOf mode 0 2 = 1 then 2 else 1)
        else .unclassed
      | [] => .unclassed := by
  have hopen : commandOf (opcodeField q.word0) = some .openSurface := by rw [h]; rfl
  simp only [waitClass, hopen]
  cases q.params with
  | nil => rfl
  | cons mode rest =>
    simp only [QueuedCommand.held, apply_ite WaitClass.job]
    rfl

theorem waitClass_unclassed (q : QueuedCommand)
    (h : opcodeField q.word0 ∉ ([0x01, 0x02, 0x10, 0x11, 0x12, 0x13, 0x14, 0x18, 0x19, 0x38, 0x39] : List Byte)) :
    waitClass q = .unclassed := by
  rw [waitClass]
  cases hc : commandOf (opcodeField q.word0) with
  | none => rfl
  | some c =>
    rw [← (commandOf_eq_some_iff _ _).1 hc] at h
    cases c
    case querySurface | queryPool | pixelRead | queryStaging | queryOrder | panelSetup | panelStart | panelStop
      | queryPanel | post | bind | unbind | portConfig | queryPort | sceneReset => rfl
    all_goals exact absurd (by decide) h

/-- Settles O7: a command is written whole (`sendCommand_waits`, `sendCommand_dropped`), an execution is blind to what
stands behind it, and the conditions and classes are read off their definitions. -/
theorem commandQueueKept : Obligations.CommandQueueKept := by
  refine ⟨fun s low params hr ha hf hfit => ⟨fun c hwait => ?row, fun opcode hwait => ?unknown⟩,
    fun s low params dropped hr ha hf hfull hwait hd => ⟨fun c => ?rowDropped, fun opcode => ?unknownDropped⟩,
    fun d => ⟨settle_headsWait d, fun q rest hq hready => settle_cons d q rest hq hready⟩,
    fun d q rest => ⟨_, rfl, executeHead_behind q d d.pins.dataOut rest d.control.nextSeq⟩,
    fun d q => (headReady_iff d q).trans (by rw [classReady_iff]),
    fun d places => ⟨rfl, classReady_staging_iff d, classReady_job_iff d places⟩,
    fun q opcode ho => ⟨fun h => ?staging, fun h => ?job, fun h mode rest hq hl hfill => ?fill, fun h hno => ?noFill,
      fun h => ?unclassed⟩⟩
  case row => rw [exec_row, sendCommand_waits s.dev _ low params hr ha hf hfit hwait]
  case unknown => rw [exec_unknownOpcode, sendCommand_waits s.dev _ low params hr ha hf hfit hwait]
  case rowDropped => rw [exec_row, sendCommand_dropped s.dev _ low params hr ha hf hfull hwait, hd]
  case unknownDropped => rw [exec_unknownOpcode, sendCommand_dropped s.dev _ low params hr ha hf hfull hwait, hd]
  case staging => exact waitClass_staging q (ho ▸ h)
  case job => exact waitClass_job q (ho ▸ h)
  case fill => simp [waitClass_open q (ho ▸ h), hq, hl, hfill]
  case noFill =>
    rw [waitClass_open q (ho ▸ h)]
    cases hq : q.params with
    | nil => rfl
    | cons mode rest =>
      refine if_neg fun ⟨hl, hfill⟩ => ?_
      rw [hno mode rest hq hl] at hfill
      exact nomatch hfill
  case unclassed => exact waitClass_unclassed q (ho ▸ h)

/-! ## Commands refused before any block sees them (R162) -/

/-- A length that the command word does not declare does not fit the command, whatever length is used for admission. -/
theorem lengthFits_of_not_declares (c : Command) (k low : Byte) (params : List Word)
    (h : declares low (commandLength c) = false) :
    lengthFits c ⟨k, commandWord (commandCode c) low, params⟩ = false := by
  rw [← Bool.not_eq_true, declares_iff] at h
  rw [← Bool.not_eq_true]
  simp only [lengthFits, QueuedCommand.held, admissionLength, lengthField_low,
    Bool.and_eq_true, beq_iff_eq, decide_eq_true_eq]
  split_ifs <;> omega

/-- Settles O8: the effect of a head with a wrong length or an unknown opcode is its refusal alone. -/
theorem malformedCommandsRefused : Obligations.MalformedCommandsRefused := by
  refine ⟨fun s c low params hs hf hl hc => ?badLength, fun s opcode low params hs hw => ?badCommand, by decide,
    fun opcode low => ⟨commandWord_toNat opcode low, opcodeField_commandWord opcode low⟩, declares_iff⟩
  case badLength =>
    rw [exec_row, sendCommand_executes s.dev (commandCode c) low params hs hf hc s.dev (refusal .badLength)]
    simp [headEffect, lengthFits_of_not_declares c _ low params hl]
  case badCommand =>
    obtain ⟨hf, hunknown⟩ := Bool.and_eq_true_iff.1 hw
    have hnone : commandOf opcode = none := Option.isNone_iff_eq_none.1 hunknown
    rw [exec_unknownOpcode, sendCommand_executes s.dev opcode low params hs hf _ s.dev (refusal .badCommand)]
    · simp [headEffect, hnone]
    · simp [waitClass, hnone, Device.classReady]

end Sys2Proof.Machine
end

section
/-! Fields of words (spec/11): words put together from fields as numbers, masks of fields, and the structured parameter
words of Table 11-5 read whole; then the checks of handles (R4, R6). -/

namespace Sys2Proof.Machine

/-! ## Words from fields -/

/-- A low part below bit `i` and a high part from bit `i` on stand side by side. -/
theorem or_toNat_low_high (a b : Word) (i : Nat) (ha : a.toNat < 2^i) (hb : 2^i ∣ b.toNat) :
    (a ||| b).toNat = a.toNat + b.toNat := by
  obtain ⟨q, hq⟩ := hb
  rw [BitVec.or_comm, toNat_or_fields q a.toNat i b a hq rfl ha, hq, Nat.add_comm]

/-- A field above every bit of a word adds its value. -/
theorem or_bitsAt_toNat (a : Word) (v lo : Nat) (ha : a.toNat < 2^lo) (hv : v * 2^lo < 65536) :
    (a ||| bitsAt v lo).toNat = a.toNat + v * 2^lo := by
  rw [or_toNat_low_high a _ lo ha (by rw [bitsAt_toNat v lo hv]; exact Nat.dvd_mul_left _ _), bitsAt_toNat v lo hv]

theorem bool_toNat_lt_two (b : Bool) : b.toNat < 2 := by cases b <;> decide

/-! ## Fields of a word -/

/-- A bit of a word as a number. -/
theorem getLsbD_eq_div (w : Word) (k : Nat) : (w.getLsbD k).toNat = w.toNat / 2^k % 2 := by
  rw [BitVec.getLsbD, Nat.toNat_testBit]

/-- A mask of one field tests that field. -/
theorem and_fieldMask_eq_zero_iff (w : Word) (lo len : Nat) (h : lo + len ≤ 16) :
    w &&& bitsAt (2^len - 1) lo = 0 ↔ w.toNat / 2^lo % 2^len = 0 := by
  have hmask : ∀ k, (bitsAt (2^len - 1) lo).getLsbD k = (decide (lo ≤ k) && decide (k < lo + len)) := by
    intro k
    rw [bitsAt, BitVec.getLsbD_shiftLeft, BitVec.getLsbD_ofNat, Nat.testBit_two_pow_sub_one, Bool.eq_iff_iff]
    simp only [Bool.and_eq_true, decide_eq_true_eq, Bool.not_eq_true', decide_eq_false_iff_not]
    omega
  have hfield : w.toNat / 2^lo % 2^len = 0 ↔ w.extractLsb' lo len = 0#len := by
    rw [← fieldOf_eq, fieldOf, ← BitVec.toNat_inj, BitVec.toNat_zero]
  rw [hfield, show (0 : Word) = 0#16 from rfl, BitVec.zero_iff_eq_false, BitVec.zero_iff_eq_false]
  simp only [BitVec.getLsbD_and, hmask, BitVec.getLsbD_extractLsb', Bool.and_eq_false_iff, decide_eq_false_iff_not]
  refine ⟨fun hw i => ?_, fun hw k => ?_⟩
  · have := hw (lo + i)
    by_cases hi : i < len
    · right; simpa [hi] using this
    · exact .inl hi
  · by_cases hk : lo ≤ k ∧ k < lo + len
    · have := hw (k - lo)
      rw [show lo + (k - lo) = k by omega] at this
      left; simpa [show k - lo < len by omega] using this
    · right; omega

theorem and_or_eq_zero_iff (w a b : Word) : w &&& (a ||| b) = 0 ↔ w &&& a = 0 ∧ w &&& b = 0 := by
  rw [BitVec.and_or_distrib_left]
  exact BitVec.or_eq_zero_iff

/-! ## The structured parameter words (Table 11-5, R181) -/

theorem orientationOf_eq_iff (code : Nat) (hc : code < 8) (o : Orientation) :
    orientationOf code = o ↔ code = orientationCode o := by
  interval_cases code <;> cases o <;> decide

theorem orientationCode_lt (o : Orientation) : orientationCode o < 8 := by cases o <;> decide

theorem polarityCode_lt (p : Polarity) : polarityCode p < 2 := by cases p <;> decide

theorem polarityOf_eq_iff (b : Bool) (p : Polarity) : polarityOf b = p ↔ b.toNat = polarityCode p := by
  cases b <;> cases p <;> decide

theorem buffering_eq_iff (b : Bool) (m : Buffering) :
    (if b then Buffering.double else .single) = m ↔ b.toNat = (m == .double).toNat := by
  cases b <;> cases m <;> decide

theorem bool_eq_iff_toNat (a b : Bool) : a = b ↔ a.toNat = b.toNat := by cases a <;> cases b <;> decide

/-- The positions of a mode word that carry no field. -/
theorem modeMask_iff (w : Word) : w &&& 0xFE8E = 0 ↔
    w.toNat / 2 % 8 = 0 ∧ w.toNat / 128 % 2 = 0 ∧ w.toNat / 512 % 128 = 0 := by
  have hruns : (0xFE8E : Word) = bitsAt (2^3 - 1) 1 ||| (bitsAt (2^1 - 1) 7 ||| bitsAt (2^7 - 1) 9) := by decide
  rw [hruns, and_or_eq_zero_iff, and_or_eq_zero_iff, and_fieldMask_eq_zero_iff w 1 3 (by omega),
    and_fieldMask_eq_zero_iff w 7 1 (by omega), and_fieldMask_eq_zero_iff w 9 7 (by omega)]
  simp only [Nat.reducePow]

theorem modeWord_toNat (m : OpenMode) :
    (flagAt (m.buffering == .double) 0 ||| bitsAt (orientationCode m.orientation) 4 ||| flagAt m.fill 8).toNat
      = (m.buffering == .double).toNat + orientationCode m.orientation * 16 + m.fill.toNat * 256 := by
  have hb := bool_toNat_lt_two (m.buffering == .double)
  have ho := orientationCode_lt m.orientation
  have hf := bool_toNat_lt_two m.fill
  have h0 := bitsAt_toNat (m.buffering == .double).toNat 0 (by omega)
  have h1 := or_bitsAt_toNat (bitsAt (m.buffering == .double).toNat 0) (orientationCode m.orientation) 4
    (by omega) (by omega)
  rw [flagAt, flagAt, or_bitsAt_toNat _ m.fill.toNat 8 (by omega) (by omega), h1, h0]
  omega

/-- A mode word is read whole. -/
theorem decodeMode_eq_some_iff (w : Word) (m : OpenMode) : decodeMode w = some m ↔
    w = flagAt (m.buffering == .double) 0 ||| bitsAt (orientationCode m.orientation) 4 ||| flagAt m.fill 8 := by
  have hlt := w.isLt
  have hb := bool_toNat_lt_two (m.buffering == .double)
  have ho := orientationCode_lt m.orientation
  have hf := bool_toNat_lt_two m.fill
  have hfields : (⟨if w.getLsbD 0 then .double else .single, orientationOf (fieldOf w 4 3), w.getLsbD 8⟩ : OpenMode) = m
      ↔ w.toNat % 2 = (m.buffering == .double).toNat ∧ w.toNat / 16 % 8 = orientationCode m.orientation
        ∧ w.toNat / 256 % 2 = m.fill.toNat := by
    obtain ⟨b, o, f⟩ := m
    rw [OpenMode.mk.injEq, buffering_eq_iff, orientationOf_eq_iff _ (fieldOf_lt w 4 3), bool_eq_iff_toNat,
      getLsbD_eq_div, getLsbD_eq_div, fieldOf_eq]
    norm_num
  rw [← BitVec.toNat_inj, modeWord_toNat, decodeMode]
  simp only [modeMask_iff]
  split
  · rw [Option.some.injEq, hfields]; omega
  · refine ⟨fun h => (nomatch h), fun h => ?_⟩; omega

/-- The positions of a look word that carry no field. -/
theorem lookMask_iff (w : Word) : w &&& 0xC0E0 = 0 ↔ w.toNat / 32 % 8 = 0 ∧ w.toNat / 16384 % 4 = 0 := by
  have hruns : (0xC0E0 : Word) = bitsAt (2^3 - 1) 5 ||| bitsAt (2^2 - 1) 14 := by decide
  rw [hruns, and_or_eq_zero_iff, and_fieldMask_eq_zero_iff w 5 3 (by omega),
    and_fieldMask_eq_zero_iff w 14 2 (by omega)]
  simp only [Nat.reducePow]

/-- A look word is read whole. -/
theorem decodeLook_eq_some_iff (w : Word) (l : Look) : decodeLook w = some l ↔
    l.opacity ≤ 16 ∧ l.tag ≤ 63 ∧ w = bitsAt l.opacity 0 ||| bitsAt l.tag 8 := by
  have hlt := w.isLt
  obtain ⟨opacity, tag⟩ := l
  have hword : opacity ≤ 16 → tag ≤ 63 →
      (bitsAt opacity 0 ||| bitsAt tag 8).toNat = opacity + tag * 256 := by
    intro ho ht
    have h0 : (bitsAt opacity 0).toNat = opacity := by rw [bitsAt_toNat _ _ (by omega), pow_zero, Nat.mul_one]
    rw [or_bitsAt_toNat _ tag 8 (by omega) (by omega), h0]; omega
  rw [decodeLook]
  simp only [lookMask_iff, fieldOf_eq]
  split
  · rw [Option.some.injEq, Look.mk.injEq]
    refine ⟨fun ⟨ho, ht⟩ => ?_, fun ⟨ho, ht, hw⟩ => ?_⟩
    · refine ⟨by omega, by omega, BitVec.eq_of_toNat_eq ?_⟩
      rw [hword (by omega) (by omega)]; omega
    · rw [hw, hword ho ht]; omega
  · refine ⟨fun h => (nomatch h), fun ⟨ho, ht, hw⟩ => ?_⟩
    have := congrArg BitVec.toNat hw
    rw [hword ho ht] at this
    omega

/-- The positions of a timing word that carry no field. -/
theorem timingMask_iff (w : Word) : w &&& 0xFCE0 = 0 ↔ w.toNat / 32 % 8 = 0 ∧ w.toNat / 1024 % 64 = 0 := by
  have hruns : (0xFCE0 : Word) = bitsAt (2^3 - 1) 5 ||| bitsAt (2^6 - 1) 10 := by decide
  rw [hruns, and_or_eq_zero_iff, and_fieldMask_eq_zero_iff w 5 3 (by omega),
    and_fieldMask_eq_zero_iff w 10 6 (by omega)]
  simp only [Nat.reducePow]

/-- A timing word is read whole. -/
theorem decodeTiming_eq_some_iff (w : Word) (t : Timing) : decodeTiming w = some t ↔
    1 ≤ t.divider ∧ t.divider ≤ 16
      ∧ w = bitsAt t.divider 0 ||| bitsAt (polarityCode t.hPolarity) 8 ||| bitsAt (polarityCode t.vPolarity) 9 := by
  have hlt := w.isLt
  obtain ⟨divider, h, v⟩ := t
  have hh := polarityCode_lt h
  have hv := polarityCode_lt v
  have hword : divider ≤ 16 →
      (bitsAt divider 0 ||| bitsAt (polarityCode h) 8 ||| bitsAt (polarityCode v) 9).toNat
        = divider + polarityCode h * 256 + polarityCode v * 512 := by
    intro hd
    have h0 : (bitsAt divider 0).toNat = divider := by rw [bitsAt_toNat _ _ (by omega), pow_zero, Nat.mul_one]
    have h1 := or_bitsAt_toNat (bitsAt divider 0) (polarityCode h) 8 (by omega) (by omega)
    rw [or_bitsAt_toNat _ (polarityCode v) 9 (by omega) (by omega), h1, h0]; omega
  rw [decodeTiming]
  simp only [timingMask_iff, fieldOf_eq]
  split
  · rw [Option.some.injEq, Timing.mk.injEq, polarityOf_eq_iff, polarityOf_eq_iff, getLsbD_eq_div, getLsbD_eq_div]
    refine ⟨fun ⟨hd, hp, hq⟩ => ?_, fun ⟨hd, hd', hw⟩ => ?_⟩
    · refine ⟨by omega, by omega, BitVec.eq_of_toNat_eq ?_⟩
      rw [hword (by omega)]; omega
    · rw [hw, hword hd']; omega
  · refine ⟨fun h => (nomatch h), fun ⟨hd, hd', hw⟩ => ?_⟩
    have := congrArg BitVec.toNat hw
    rw [hword hd'] at this
    omega

/-- Settles O10: each word is compared with the word of its fields as a number. -/
theorem parameterWordsReadWhole : Obligations.ParameterWordsReadWhole := fun w =>
  ⟨decodeMode_eq_some_iff w, decodeLook_eq_some_iff w, decodeTiming_eq_some_iff w⟩

/-! ## Handles (R4, R6) -/

theorem named_iff (st : SlotState) : st.named = true ↔ st = .dormant ∨ st = .live ∨ st = .closing := by
  cases st <;> decide

theorem validHandle_iff (d : Device) (h : Handle) : d.validHandle h = true ↔
    (d.surface h.slot).generation = h.generation
      ∧ ((d.surface h.slot).state = .dormant ∨ (d.surface h.slot).state = .live
        ∨ (d.surface h.slot).state = .closing) := by
  rw [Device.validHandle, Bool.and_eq_true, named_iff, beq_iff_eq, and_comm]

theorem handleOf_fields (w : Word) :
    (handleOf w).slot.val = w.toNat / 0x100 % 16 ∧ (handleOf w).generation.toNat = w.toNat % 0x100 := by
  have hslot := fieldOf_eq w 8 4
  have hgeneration := fieldOf_eq w 0 8
  rw [Nat.pow_zero, Nat.div_one] at hgeneration
  exact ⟨hslot, hgeneration⟩

/-- Settles O9: the refusal of a handle, by whether it is valid and whether its surface is CLOSING. -/
theorem handlesChecked : Obligations.HandlesChecked := by
  intro d h
  refine ⟨validHandle_iff d h, ?badHandle, ?badState, ?accepted, handleOf_handleWord h, handleWord_toNat h,
    handleOf_fields⟩
  all_goals
    rw [Device.handleRefusal]
    cases d.validHandle h with
    | false => simp
    | true => by_cases hc : (d.surface h.slot).state = .closing <;> simp [hc]

end Sys2Proof.Machine
end

section
/-! Commands that execute as they are written, by what they do at the head of the queue; the queries, whose words are
read field by field, and the edits of the staging set (spec/01 to spec/04, spec/07). -/

namespace Sys2Proof.Machine

/-! ## A command that is answered at once -/

/-- A whole command of the right length whose class lets it execute leaves what its block does at the head of the queue,
and the block's answer. -/
theorem exec_atHead (c : Command) (f : List Word → Device → Device × Reply) (low : Byte) (params : List Word) (s : State)
    (hs : s.dev.takesCommands = true) (hl : declares low (commandLength c) = true)
    (hc : s.dev.classReady (classOf c params) = true) {e : Device} {r : Reply} (he : f params s.dev = (e, r))
    (hp : params.length + 1 = commandLength c := by rfl)
    (hf : runCommand c params s.dev = ((f params s.dev).1, some (f params s.dev).2) := by rfl) :
    exec (rowOf c low params) s = .next (s.withDevice (e.answering (commandCode c) r)) :=
  exec_command c low params s hs hl hp hc e r (by rw [hf, he])

/-! ## QUERY_SURFACE and QUERY_PORT -/

theorem querySurfaceAtHead_badHandle (d : Device) (hw : Word) (h : d.validHandle (handleOf hw) = false) :
    querySurfaceAtHead [hw] d = (d, refusal .badHandle) := by
  simp [querySurfaceAtHead, h]

theorem querySurfaceAtHead_valid (d : Device) (hw : Word) (h : d.validHandle (handleOf hw) = true) :
    querySurfaceAtHead [hw] d = (d, okReply (surfaceWords d (handleOf hw))) := by
  simp [querySurfaceAtHead, h]

theorem queryPortAtHead_badParam (d : Device) (pw : Word) (h : 3 < pw.toNat) :
    queryPortAtHead [pw] d = (d, refusal .badParam) := by
  simp [queryPortAtHead, decodePort_none pw h]

theorem queryPortAtHead_port (d : Device) (pw : Word) (n : PortNum) (h : pw.toNat = n.val) :
    queryPortAtHead [pw] d = (d, okReply (portWords (d.port n))) := by
  simp [queryPortAtHead, decodePort_some pw n h]

/-- Settles O15: the queries answer the words of their records and leave the device; the codes are the tables'. -/
theorem surfaceAndPortQueried : Obligations.SurfaceAndPortQueried := by
  refine ⟨fun s low hw hs hl => ⟨fun hbad => ?badHandle, ?surface⟩,
    fun s low pw hs hl => ⟨fun hbad => ?badParam, ?port⟩, rfl, rfl, rfl, rfl, rfl, rfl⟩
  case badHandle =>
    exact exec_atHead .querySurface querySurfaceAtHead low [hw] s hs hl rfl
      (querySurfaceAtHead_badHandle s.dev hw hbad)
  case surface =>
    rintro r rfl hvalid
    exact exec_atHead .querySurface querySurfaceAtHead low [hw] s hs hl rfl (querySurfaceAtHead_valid s.dev hw hvalid)
  case badParam =>
    exact exec_atHead .queryPort queryPortAtHead low [pw] s hs hl rfl (queryPortAtHead_badParam s.dev pw hbad)
  case port =>
    rintro n p hn rfl
    exact exec_atHead .queryPort queryPortAtHead low [pw] s hs hl rfl (queryPortAtHead_port s.dev pw n hn)

/-! ## QUERY_POOL (R39) -/

theorem slabsHeld_eq_sum (d : Device) (test : SlotState → Bool) :
    d.slabsHeld test = ∑ i, if test (d.surface i).state then (d.surface i).heldSlabs.length else 0 := by
  rw [← slotSum, Device.slabsHeld]
  induction allSlots with
  | nil => rfl
  | cons i l ih => cases ht : test (d.surface i).state <;> simp [ht, ih]

/-- Every slab of a list is one of the 256. -/
theorem sum_count_slab (l : List Slab) : ∑ k : Slab, l.count k = l.length := by
  simpa using Multiset.sum_count_eq_card (s := Finset.univ) (m := (l : Multiset Slab)) (fun k _ => Finset.mem_univ k)

theorem named_eq : SlotState.named = fun st => st == .dormant || st == .live || st == .closing := by
  funext st; cases st <;> rfl

/-- A slot that holds slabs is open or RELEASING (R31). -/
theorem slabsHeld_named_add_releasing (d : Device)
    (hfree : ∀ i, (d.surface i).state = .free → (d.surface i).heldSlabs = []) :
    d.slabsHeld SlotState.named + d.slabsHeld (fun st => st == .releasing)
      = ∑ i, (d.surface i).heldSlabs.length := by
  rw [slabsHeld_eq_sum, slabsHeld_eq_sum, ← Finset.sum_add_distrib]
  refine Finset.sum_congr rfl fun i _ => ?_
  cases hst : (d.surface i).state with
  | free => simp [hfree i hst]
  | dormant | live | closing | releasing => simp [SlotState.named]

/-- Under slab conservation the three counts of QUERY_POOL are all the slabs there are. -/
theorem slabLaw_total (d : Device) (h : d.slabLaw) :
    d.freeSlabs.length + d.slabsHeld SlotState.named + d.slabsHeld (fun st => st == .releasing) = 256 := by
  obtain ⟨hone, hfree, -⟩ := h
  rw [Nat.add_assoc, slabsHeld_named_add_releasing d hfree]
  calc d.freeSlabs.length + ∑ i, (d.surface i).heldSlabs.length
      = ∑ k : Slab, d.slabCount k := by
        simp only [slabCount_eq, Finset.sum_add_distrib, sum_count_slab]
        rw [Finset.sum_comm]
        simp only [sum_count_slab]
    _ = 256 := by simp [hone]

/-- Settles O16: the four counts are those of the pool, and slab conservation adds the first three up. -/
theorem queryPoolResult : Obligations.QueryPoolResult := by
  refine ⟨fun s low hs hl => ⟨?answer, fun hlaw => ?total⟩, fun _ => rfl, fun d test => ?held⟩
  case answer =>
    rw [← named_eq]
    exact exec_atHead .queryPool queryPoolAtHead low [] s hs hl rfl rfl
  case total => rw [← named_eq]; exact slabLaw_total s.dev hlaw
  case held => rw [slabsHeld_eq_sum, slotSum]

/-! ## SET_POSITION and SET_LOOK (R44, R45) -/

theorem setPositionAtHead_refused (d : Device) (hw x y : Word) (st : Status)
    (h : d.handleRefusal (handleOf hw) = some st) : setPositionAtHead [hw, x, y] d = (d, refusal st) := by
  simp [setPositionAtHead, h]

theorem setPositionAtHead_badParam (d : Device) (hw x y : Word) (h : d.handleRefusal (handleOf hw) = none)
    (hout : 2047 < x.toNat ∨ 2047 < y.toNat) : setPositionAtHead [hw, x, y] d = (d, refusal .badParam) := by
  simp only [setPositionAtHead, h]
  exact if_neg (by omega)

theorem setPositionAtHead_ok (d : Device) (hw x y : Word) (h : d.handleRefusal (handleOf hw) = none)
    (hx : x.toNat ≤ 2047) (hy : y.toNat ≤ 2047) : setPositionAtHead [hw, x, y] d
      = (d.editPending (handleOf hw).slot
          { (d.surface (handleOf hw).slot).pendingLook with x := x.toNat, y := y.toNat }, okReply []) := by
  simp only [setPositionAtHead, h]
  exact if_pos ⟨hx, hy⟩

theorem setLookAtHead_refused (d : Device) (hw lw : Word) (st : Status)
    (h : d.handleRefusal (handleOf hw) = some st) : setLookAtHead [hw, lw] d = (d, refusal st) := by
  simp [setLookAtHead, h]

theorem setLookAtHead_badParam (d : Device) (hw lw : Word) (h : d.handleRefusal (handleOf hw) = none)
    (hlook : decodeLook lw = none) : setLookAtHead [hw, lw] d = (d, refusal .badParam) := by
  simp [setLookAtHead, h, hlook]

theorem setLookAtHead_ok (d : Device) (hw lw : Word) (look : Look) (h : d.handleRefusal (handleOf hw) = none)
    (hlook : decodeLook lw = some look) : setLookAtHead [hw, lw] d
      = (d.editPending (handleOf hw).slot
          { (d.surface (handleOf hw).slot).pendingLook with opacity := look.opacity, tag := look.tag },
          okReply []) := by
  simp [setLookAtHead, h, hlook]

/-- Settles O20: the checks in their order, then the edit of the pending appearance. -/
theorem appearanceEdits : Obligations.AppearanceEdits := by
  rintro s low hw r hs ho rfl
  have hready : s.dev.classReady .staging = true := (classReady_staging_iff s.dev).2 ho
  refine ⟨fun hl x y => ?position, fun hl lw => ?look⟩
  case position =>
    have hexec {e r} (he : setPositionAtHead [hw, x, y] s.dev = (e, r)) :=
      exec_atHead .setPosition setPositionAtHead low [hw, x, y] s hs hl hready he
    exact ⟨fun st h => hexec (setPositionAtHead_refused s.dev hw x y st h),
      fun h hout => hexec (setPositionAtHead_badParam s.dev hw x y h hout),
      fun h hx hy => hexec (setPositionAtHead_ok s.dev hw x y h hx hy)⟩
  case look =>
    have hexec {e r} (he : setLookAtHead [hw, lw] s.dev = (e, r)) :=
      exec_atHead .setLook setLookAtHead low [hw, lw] s hs hl hready he
    exact ⟨fun st h => hexec (setLookAtHead_refused s.dev hw lw st h),
      fun h hlook => hexec (setLookAtHead_badParam s.dev hw lw h hlook),
      fun h look hlook => hexec (setLookAtHead_ok s.dev hw lw look h hlook)⟩

/-! ## COMMIT and DISCARD (R48, R49, R57, R58) -/

theorem offerIdle_stopped (d : Device) (h : d.scan.state = .stopped) : d.offerIdle = d.applyPoint true := if_pos h

theorem offerIdle_not_stopped (d : Device) (h : d.scan.state ≠ .stopped) : d.offerIdle = d := if_neg h

theorem commitAtHead_clean (d : Device) (h : d.staging.dirty = false) : commitAtHead [] d = (d, okReply [0]) := by
  simp [commitAtHead, h]

theorem commitAtHead_dirty (d : Device) (h : d.staging.dirty = true) : commitAtHead [] d
    = (({ d with staging := { d.staging with state := .armed } } : Device).offerIdle, okReply [1]) := by
  simp [commitAtHead, h]

theorem commitAtHead_running (d : Device) (h : d.staging.dirty = true) (hrun : d.scan.state ≠ .stopped) :
    commitAtHead [] d = ({ d with staging := { d.staging with state := .armed } }, okReply [1]) := by
  rw [commitAtHead_dirty d h, offerIdle_not_stopped]
  exact hrun

theorem commitAtHead_stopped (d : Device) (h : d.staging.dirty = true) (hstop : d.scan.state = .stopped) :
    commitAtHead [] d
      = (({ d with staging := { d.staging with state := .armed } } : Device).applyPoint true, okReply [1]) := by
  rw [commitAtHead_dirty d h, offerIdle_stopped]
  exact hstop

/-- Settles O22: COMMIT arms and offers the idle apply point of STOPPED; DISCARD is followed slot by slot. -/
theorem commitAndDiscardResult : Obligations.CommitAndDiscardResult := by
  refine ⟨fun s low hs hl ho => ⟨fun hclean => ?clean, fun hdirty hrun => ?running, fun hdirty hstop => ?stopped⟩,
    fun s low hs hl ho => ⟨s.dev.discardBatch.surfaces, ?discard, fun i => ?slots⟩⟩
  case clean =>
    exact exec_atHead .commit commitAtHead low [] s hs hl ((classReady_staging_iff s.dev).2 ho)
      (commitAtHead_clean s.dev hclean)
  case running =>
    exact exec_atHead .commit commitAtHead low [] s hs hl ((classReady_staging_iff s.dev).2 ho)
      (commitAtHead_running s.dev hdirty hrun)
  case stopped =>
    exact exec_atHead .commit commitAtHead low [] s hs hl ((classReady_staging_iff s.dev).2 ho)
      (commitAtHead_stopped s.dev hdirty hstop)
  case discard =>
    exact exec_atHead .discard discardAtHead low [] s hs hl ((classReady_staging_iff s.dev).2 ho) rfl
  case slots =>
    change s.dev.discardBatch.surface i = _
    rw [discardBatch_surface, Surface.discarded]
    cases hst : (s.dev.surface i).state <;> simp only [hst]

/-! ## QUERY_STAGING, QUERY_ORDER and QUERY_PANEL (R59, R67, R90) -/

theorem editable_eq : SlotState.editable = fun st => st == .dormant || st == .live := by
  funext st; cases st <;> rfl

theorem looksChanged_eq (r : Surface) :
    r.looksChanged = ((r.state == .dormant || r.state == .live) && r.pendingLook != r.committed) := by
  rw [Surface.looksChanged, editable_eq]

/-- Flags gathered slot by slot: each bit was there, or is that of a slot whose test holds. -/
theorem foldl_slotFlags_getLsbD (test : Slot → Bool) (l : List Slot) (w : Word) (k : Nat) :
    (l.foldl (fun w i => w ||| flagAt (test i) i.val) w).getLsbD k
      = (w.getLsbD k || l.any fun i => test i && decide (k = i.val)) := by
  induction l generalizing w with
  | nil => simp
  | cons i l ih => rw [List.foldl_cons, ih, BitVec.getLsbD_or, flagAt_getLsbD _ _ _ i.isLt, List.any_cons, Bool.or_assoc]

theorem slotFlags_getLsbD (test : Slot → Bool) (i : Slot) : (slotFlags test).getLsbD i.val = test i := by
  rw [slotFlags, foldl_slotFlags_getLsbD, Bool.eq_iff_iff]
  simp [allSlots, ← Fin.ext_iff]

/-- A place of an order reads as a slot number, 0 beyond the list. -/
theorem place_slot_lt (order : List Handle) (k : Nat) : ((order[k]?).map fun h => h.slot.val).getD 0 < 16 := by
  cases order[k]? with
  | none => exact Nat.zero_lt_succ _
  | some h => exact h.slot.isLt

theorem fourFields_toNat (a b c e : Nat) (ha : a < 16) (hb : b < 16) (hc : c < 16) (he : e < 16) :
    (bitsAt a 0 ||| bitsAt b 4 ||| bitsAt c 8 ||| bitsAt e 12).toNat = a + b * 16 + c * 256 + e * 4096 := by
  have h0 : (bitsAt a 0).toNat = a := by rw [bitsAt_toNat a 0 (by omega), pow_zero, Nat.mul_one]
  have h1 := or_bitsAt_toNat (bitsAt a 0) b 4 (by omega) (by omega)
  have h2 := or_bitsAt_toNat (bitsAt a 0 ||| bitsAt b 4) c 8 (by omega) (by omega)
  rw [or_bitsAt_toNat _ e 12 (by omega) (by omega), h2, h1, h0]
  omega

/-- Each place of an order in its own four bits. -/
theorem fourPlaces_field (order : List Handle) (first k : Nat) (hk : k < 4) :
    fieldOf (fourPlaces order first) (4 * k) 4 = ((order[first + k]?).map fun h => h.slot.val).getD 0 := by
  have hlt := fun k => place_slot_lt order (first + k)
  have hword := fourFields_toNat _ _ _ _ (hlt 0) (hlt 1) (hlt 2) (hlt 3)
  rw [fieldOf_eq, fourPlaces, hword]
  have h0 := hlt 0
  have h1 := hlt 1
  have h2 := hlt 2
  have h3 := hlt 3
  interval_cases k <;> omega

/-- Settles O23: the words are those of the definitions, and their flags and places are read one by one. -/
theorem queriesChangeNothing : Obligations.QueriesChangeNothing := by
  refine ⟨fun s low hs hl => ⟨?staging, ?order, ?panel⟩, rfl, rfl, slotFlags_getLsbD, fourPlaces_field⟩
  case staging =>
    simp only [← looksChanged_eq]
    exact exec_atHead .queryStaging queryStagingAtHead low [] s hs hl rfl rfl
  case order => exact exec_atHead .queryOrder queryOrderAtHead low [] s hs hl rfl rfl
  case panel => exact exec_atHead .queryPanel queryPanelAtHead low [] s hs hl rfl rfl

end Sys2Proof.Machine
end

section
/-! PLACE and UNPLACE (R64 to R66), and the commands of the panel (R78, R81, R83) at the head of the command queue. -/

namespace Sys2Proof.Machine

/-! ## PLACE (R64, R65) -/

theorem decodePlacement_none (w : Word) (h : 3 < w.toNat) : decodePlacement w = none := by
  have hne : ∀ k : Word, k.toNat ≤ 3 → w ≠ k := by rintro k hk rfl; omega
  rw [decodePlacement, if_neg (hne 0 (by decide)), if_neg (hne 1 (by decide)), if_neg (hne 2 (by decide)),
    if_neg (hne 3 (by decide))]

/-- A where word up to 3 names a placement, and ABOVE and BELOW examine their anchor. -/
theorem decodePlacement_some (w : Word) (h : w.toNat ≤ 3) :
    ∃ p, decodePlacement w = some p ∧ (p.anchored = true ↔ w = 2 ∨ w = 3) := by
  have hw : w = BitVec.ofNat 16 w.toNat := (BitVec.ofNat_toNat 16 w).symm
  rw [hw]
  interval_cases w.toNat <;> exact ⟨_, rfl, by decide⟩

theorem placeAtHead_refused (d : Device) (hw ww aw : Word) (st : Status)
    (h : d.handleRefusal (handleOf hw) = some st) : placeAtHead [hw, ww, aw] d = (d, refusal st) := by
  simp [placeAtHead, h]

theorem placeAtHead_badWhere (d : Device) (hw ww aw : Word) (h : d.handleRefusal (handleOf hw) = none)
    (hww : decodePlacement ww = none) : placeAtHead [hw, ww, aw] d = (d, refusal .badParam) := by
  simp [placeAtHead, h, hww]

theorem placeAtHead_badAnchor (d : Device) (hw ww aw : Word) (p : Placement)
    (h : d.handleRefusal (handleOf hw) = none) (hww : decodePlacement ww = some p) (hp : p.anchored = true)
    (ha : handleOf aw = handleOf hw ∨ handleOf aw ∉ d.staging.order) :
    placeAtHead [hw, ww, aw] d = (d, refusal .badParam) := by
  simp only [placeAtHead, h, hww]
  exact if_pos ⟨hp, ha⟩

/-- The last check of PLACE and its effect, once the handle, the where word and the anchor have been accepted. -/
theorem placeAtHead_accepted (d : Device) (hw ww aw : Word) (p : Placement)
    (h : d.handleRefusal (handleOf hw) = none) (hww : decodePlacement ww = some p)
    (ha : ¬ (p.anchored = true ∧ (handleOf aw = handleOf hw ∨ handleOf aw ∉ d.staging.order))) :
    placeAtHead [hw, ww, aw] d =
      if handleOf hw ∉ d.staging.order ∧ Config.orderCapacity ≤ d.staging.order.length then (d, refusal .listFull)
      else
        (d.setPending (placed d.staging.order (handleOf hw) p (handleOf aw)),
          okReply [wordOf ((placed d.staging.order (handleOf hw) p (handleOf aw)).idxOf (handleOf hw))]) := by
  simp only [placeAtHead, h, hww]
  exact if_neg ha

/-- A handle that finds room stands between the handles below it and those above it, and answers how many are below. -/
theorem placeAtHead_placed (d : Device) (hw ww aw : Word) (p : Placement) (below above : List Handle)
    (h : d.handleRefusal (handleOf hw) = none) (hww : decodePlacement ww = some p)
    (ha : ¬ (p.anchored = true ∧ (handleOf aw = handleOf hw ∨ handleOf aw ∉ d.staging.order)))
    (hroom : handleOf hw ∈ d.staging.order ∨ d.staging.order.length < 8)
    (hplaced : placed d.staging.order (handleOf hw) p (handleOf aw) = below ++ handleOf hw :: above)
    (hbelow : handleOf hw ∉ below) :
    placeAtHead [hw, ww, aw] d
      = (d.setPending (below ++ handleOf hw :: above), okReply [wordOf below.length]) := by
  have hfits : ¬ (handleOf hw ∉ d.staging.order ∧ Config.orderCapacity ≤ d.staging.order.length) := by
    rintro ⟨hout, hfull⟩
    exact hroom.elim hout (Nat.not_lt.2 hfull)
  rw [placeAtHead_accepted d hw ww aw p h hww ha, if_neg hfits, hplaced, idxOf_split _ _ _ hbelow]

/-- Where each placement puts the handle, by the handles left below and above it when it is removed (R65). -/
theorem placed_top (l : List Handle) (h a : Handle) : placed l h .top a = l.erase h ++ [h] := rfl

theorem placed_bottom (l : List Handle) (h a : Handle) : placed l h .bottom a = [] ++ h :: l.erase h := rfl

/-- With the handle removed, the anchor stands once in what is left, and the handle does not. -/
theorem erase_split (l below above : List Handle) (h a : Handle) (hl : l.Nodup)
    (hrest : l.erase h = below ++ a :: above) : a ∈ l ∧ a ∉ below ∧ h ∉ below ++ a :: above := by
  have hnodup := hl.erase h
  rw [hrest, List.nodup_append] at hnodup
  refine ⟨List.mem_of_mem_erase (b := h) ?_, fun hmem => hnodup.2.2 a hmem a (List.mem_cons_self ..) rfl, ?_⟩
  · rw [hrest]; exact List.mem_append_right _ (List.mem_cons_self ..)
  · rw [← hrest]; exact hl.not_mem_erase

theorem placed_above (l below above : List Handle) (h a : Handle) (hl : l.Nodup)
    (hrest : l.erase h = below ++ a :: above) : placed l h .above a = (below ++ [a]) ++ h :: above := by
  rw [placed, hrest, insertAbove_split a h below above (erase_split l below above h a hl hrest).2.1, List.append_assoc]
  rfl

theorem placed_below (l below above : List Handle) (h a : Handle) (hl : l.Nodup)
    (hrest : l.erase h = below ++ a :: above) : placed l h .below a = below ++ h :: a :: above := by
  rw [placed, hrest, insertBelow_split a h below above (erase_split l below above h a hl hrest).2.1]

/-! ## UNPLACE (R66) -/

theorem unplaceAtHead_refused (d : Device) (hw : Word) (st : Status) (h : d.handleRefusal (handleOf hw) = some st) :
    unplaceAtHead [hw] d = (d, refusal st) := by
  simp [unplaceAtHead, h]

theorem unplaceAtHead_badState (d : Device) (hw : Word) (h : d.handleRefusal (handleOf hw) = none)
    (hout : handleOf hw ∉ d.staging.order) : unplaceAtHead [hw] d = (d, refusal .badState) := by
  simp [unplaceAtHead, h, hout]

theorem unplaceAtHead_ok (d : Device) (hw : Word) (below above : List Handle)
    (h : d.handleRefusal (handleOf hw) = none) (hbelow : handleOf hw ∉ below)
    (hsplit : d.staging.order = below ++ handleOf hw :: above) :
    unplaceAtHead [hw] d = (d.setPending (below ++ above), okReply []) := by
  simp [unplaceAtHead, h, hsplit, List.erase_append_right _ hbelow]

/-- Settles O24: the placements by the split of the order at the handle's place, UNPLACE by the split at the handle. -/
theorem placeAndUnplaceResult : Obligations.PlaceAndUnplaceResult := by
  refine ⟨?place, fun s low hw hs hl ho => ?unplace⟩
  case place =>
    rintro s low hw ww aw h a rest hs hl ho rfl rfl rfl
    have hexec {e r} (he : placeAtHead [hw, ww, aw] s.dev = (e, r)) :=
      exec_atHead .place placeAtHead low [hw, ww, aw] s hs hl ((classReady_staging_iff s.dev).2 ho) he
    refine ⟨fun st h => hexec (placeAtHead_refused s.dev hw ww aw st h),
      fun h hww => hexec (placeAtHead_badWhere s.dev hw ww aw h (decodePlacement_none ww hww)),
      fun h hww ha => ?badAnchor, fun h hww ha hout hfull => ?listFull, fun h hnodup hroom below above =>
        ⟨fun hww hb hab => ?top, fun hww hb hab => ?bottom, fun hww hne hab => ?above, fun hww hne hab => ?below⟩⟩
    case badAnchor =>
      obtain ⟨p, hp, hanchored⟩ := decodePlacement_some ww (by rcases hww with rfl | rfl <;> decide)
      exact hexec (placeAtHead_badAnchor s.dev hw ww aw p h hp (hanchored.2 hww) ha)
    case listFull =>
      obtain ⟨p, hp, hanchored⟩ := decodePlacement_some ww hww
      have haccept : ¬ (p.anchored = true ∧ (handleOf aw = handleOf hw ∨ handleOf aw ∉ s.dev.staging.order)) := by
        rintro ⟨hanch, hbad⟩
        obtain ⟨hne, hmem⟩ := ha (hanchored.1 hanch)
        exact hbad.elim hne (not_not_intro hmem)
      refine hexec ?_
      rw [placeAtHead_accepted s.dev hw ww aw p h hp haccept]
      exact if_pos ⟨hout, hfull⟩
    case top =>
      subst hww hb hab
      exact hexec (placeAtHead_placed s.dev hw 0 aw .top _ _ h rfl (fun hbad => nomatch hbad.1) hroom
        (placed_top _ _ _) hnodup.not_mem_erase)
    case bottom =>
      subst hww hb hab
      exact hexec (placeAtHead_placed s.dev hw 1 aw .bottom _ _ h rfl (fun hbad => nomatch hbad.1) hroom
        (placed_bottom _ _ _) List.not_mem_nil)
    case above =>
      obtain ⟨l, rfl, hrest⟩ := hab
      rw [List.append_assoc, List.singleton_append] at hrest
      obtain ⟨hmem, -, hout⟩ := erase_split _ _ _ _ _ hnodup hrest
      have hbelow : handleOf hw ∉ l ++ [handleOf aw] := fun hin => hout (by
        rw [List.append_cons]; exact List.mem_append_left _ hin)
      subst hww
      exact hexec (placeAtHead_placed s.dev hw 2 aw .above _ _ h rfl
        (fun hbad => hbad.2.elim hne (not_not_intro hmem)) hroom (placed_above _ _ _ _ _ hnodup hrest) hbelow)
    case below =>
      obtain ⟨l, rfl, hrest⟩ := hab
      obtain ⟨hmem, -, hout⟩ := erase_split _ _ _ _ _ hnodup hrest
      subst hww
      exact hexec (placeAtHead_placed s.dev hw 3 aw .below _ _ h rfl
        (fun hbad => hbad.2.elim hne (not_not_intro hmem)) hroom (placed_below _ _ _ _ _ hnodup hrest)
        fun hin => hout (List.mem_append_left _ hin))
  case unplace =>
    have hexec {e r} (he : unplaceAtHead [hw] s.dev = (e, r)) :=
      exec_atHead .unplace unplaceAtHead low [hw] s hs hl ((classReady_staging_iff s.dev).2 ho) he
    exact ⟨fun st h => hexec (unplaceAtHead_refused s.dev hw st h),
      fun h hout => hexec (unplaceAtHead_badState s.dev hw h hout),
      fun h below above hbelow hsplit => hexec (unplaceAtHead_ok s.dev hw below above h hbelow hsplit)⟩

/-! ## The commands of the panel (R78, R81, R83) -/

/-- A setup is accepted exactly when its five words are in the ranges of Table 5-1. -/
theorem decodeSetup_none (aw ah hb vb tw : Word)
    (h : aw.toNat < 16 ∨ 1024 < aw.toNat ∨ ah.toNat < 16 ∨ 768 < ah.toNat ∨ hb.toNat < 8 ∨ 1023 < hb.toNat
      ∨ vb.toNat < 1 ∨ 255 < vb.toNat ∨ decodeTiming tw = none) : decodeSetup aw ah hb vb tw = none := by
  rw [decodeSetup]
  cases ht : decodeTiming tw with
  | none => rfl
  | some t =>
    simp only [ht, reduceCtorEq, or_false] at h
    exact if_neg (by omega)

theorem decodeSetup_some (aw ah hb vb tw : Word) (t : Timing) (haw : 16 ≤ aw.toNat) (haw' : aw.toNat ≤ 1024)
    (hah : 16 ≤ ah.toNat) (hah' : ah.toNat ≤ 768) (hhb : 8 ≤ hb.toNat) (hhb' : hb.toNat ≤ 1023) (hvb : 1 ≤ vb.toNat)
    (hvb' : vb.toNat ≤ 255) (ht : decodeTiming tw = some t) : decodeSetup aw ah hb vb tw
      = some ⟨aw.toNat, ah.toNat, hb.toNat, vb.toNat, t.divider, t.hPolarity, t.vPolarity⟩ := by
  simp only [decodeSetup, ht]
  exact if_pos ⟨⟨haw, haw'⟩, ⟨hah, hah'⟩, ⟨hhb, hhb'⟩, hvb, hvb'⟩

theorem panelSetupAtHead_badState (d : Device) (aw ah hb vb tw : Word) (h : d.scan.state ≠ .stopped) :
    panelSetupAtHead [aw, ah, hb, vb, tw] d = (d, refusal .badState) := if_neg h

theorem panelSetupAtHead_badParam (d : Device) (aw ah hb vb tw : Word) (h : d.scan.state = .stopped)
    (hd : decodeSetup aw ah hb vb tw = none) : panelSetupAtHead [aw, ah, hb, vb, tw] d = (d, refusal .badParam) := by
  simp [panelSetupAtHead, h, hd]

theorem panelSetupAtHead_ok (d : Device) (aw ah hb vb tw : Word) (setup : PanelSetup) (h : d.scan.state = .stopped)
    (hd : decodeSetup aw ah hb vb tw = some setup) : panelSetupAtHead [aw, ah, hb, vb, tw] d
      = ({ d with scan := { d.scan with setup := setup } }, okReply []) := by
  simp [panelSetupAtHead, h, hd]

theorem panelStartAtHead_badState (d : Device)
    (h : d.scan.state = .running ∨ d.scan.state = .stopped ∧ d.scan.setup.activeWidth = 0) :
    panelStartAtHead [] d = (d, refusal .badState) := by
  rcases h with h | ⟨h, hw⟩
  · simp [panelStartAtHead, h]
  · simp [panelStartAtHead, h, PanelSetup.valid, hw]

theorem panelStartAtHead_started (d : Device) (h : d.scan.state = .stopped) (hw : d.scan.setup.activeWidth ≠ 0) :
    panelStartAtHead [] d = ({ d with scan := d.scan.started }, okReply [0]) := by
  simp [panelStartAtHead, h, PanelSetup.valid, hw]

theorem panelStartAtHead_resumed (d : Device) (h : d.scan.state = .draining) :
    panelStartAtHead [] d = ({ d with scan := { d.scan with state := .running } }, okReply [1]) := by
  simp [panelStartAtHead, h]

theorem panelStopAtHead_running (d : Device) (h : d.scan.state = .running) :
    panelStopAtHead [] d = ({ d with scan := { d.scan with state := .draining } }, okReply [0]) := by
  simp [panelStopAtHead, h]

theorem panelStopAtHead_draining (d : Device) (h : d.scan.state = .draining) :
    panelStopAtHead [] d = (d, okReply [1]) := by
  simp [panelStopAtHead, h]

theorem panelStopAtHead_stopped (d : Device) (h : d.scan.state = .stopped) :
    panelStopAtHead [] d = (d, refusal .badState) := by
  simp [panelStopAtHead, h]

/-- Settles O28: each command by the scan state, PANEL_SETUP then by its words. -/
theorem panelCommands : Obligations.PanelCommands := by
  intro s low hs
  refine ⟨fun hl aw ah hb vb tw => ?setup, fun hl => ?startStop⟩
  case setup =>
    have hexec {e r} (he : panelSetupAtHead [aw, ah, hb, vb, tw] s.dev = (e, r)) :=
      exec_atHead .panelSetup panelSetupAtHead low [aw, ah, hb, vb, tw] s hs hl rfl he
    exact ⟨fun h => hexec (panelSetupAtHead_badState s.dev aw ah hb vb tw h),
      fun h hout => hexec (panelSetupAtHead_badParam s.dev aw ah hb vb tw h (decodeSetup_none aw ah hb vb tw hout)),
      fun h h1 h2 h3 h4 h5 h6 h7 h8 t ht => hexec (panelSetupAtHead_ok s.dev aw ah hb vb tw _ h
        (decodeSetup_some aw ah hb vb tw t h1 h2 h3 h4 h5 h6 h7 h8 ht))⟩
  case startStop =>
    have hstart {e r} (he : panelStartAtHead [] s.dev = (e, r)) :=
      exec_atHead .panelStart panelStartAtHead low [] s hs hl rfl he
    have hstop {e r} (he : panelStopAtHead [] s.dev = (e, r)) :=
      exec_atHead .panelStop panelStopAtHead low [] s hs hl rfl he
    exact ⟨fun h => hstart (panelStartAtHead_badState s.dev h),
      fun h hw => hstart (panelStartAtHead_started s.dev h hw),
      fun h => hstart (panelStartAtHead_resumed s.dev h), fun h => hstop (panelStopAtHead_running s.dev h),
      fun h => hstop (panelStopAtHead_draining s.dev h), fun h => hstop (panelStopAtHead_stopped s.dev h)⟩

end Sys2Proof.Machine
end

section
/-! POST (R96 to R98), FILL and COPY_FORWARD (R144 to R146), and PIXEL_READ (R37, R38): the commands that need a buffer of
a surface. -/

namespace Sys2Proof.Machine

/-! ## Surfaces under a burst, and flip states -/

/-- A surface is under a burst exactly when the port bound to it is in STALLED or PIXELS (R96, R131). -/
theorem underBurst_iff (d : Device) (h : Handle) (hlaw : d.bindingLaw) : d.underBurst h = true
    ↔ ∃ n, (d.port n).binding = some h ∧ ((d.port n).state = .stalled ∨ (d.port n).state = .pixels) := by
  rw [Device.underBurst]
  cases hb : d.boundPort h with
  | none => simp [boundPort_none hb]
  | some n =>
    have hn := boundPort_some hb
    have hunique : ∀ m, (d.port m).binding = some h ↔ m = n :=
      fun m => ⟨fun hm => hlaw.1 m n h hm hn, fun hm => hm ▸ hn⟩
    simp [hunique]

theorem leavesWritable_iff (f : FlipState) : f.leavesWritable = true ↔ f = .none ∨ f = .shown := by
  cases f <;> decide

theorem leavesWritable_false_iff (f : FlipState) : f.leavesWritable = false ↔ f = .posted ∨ f = .shownHeld := by
  cases f <;> decide

/-- A post to a surface that can take one (R97). -/
theorem posting_eq (f : FlipState) (h : f = .none ∨ f = .shown) :
    f.posting = if f = .none then .posted else .shownHeld := by
  rcases h with rfl | rfl <;> rfl

theorem buffering_double_ne (b : Buffering) (h : b = .double) : b ≠ .single := by rw [h]; decide

/-! ## POST (R96, R97) -/

theorem deliverPost_not_stopped (d : Device) (i : Slot) (h : d.scan.state ≠ .stopped) :
    d.deliverPost i = d.setSurface i { d.surface i with flip := (d.surface i).flip.posting } := by
  rw [Device.deliverPost, offerIdle_not_stopped]
  exact h

theorem deliverPost_stopped (d : Device) (i : Slot) (h : d.scan.state = .stopped) :
    d.deliverPost i = (d.setSurface i { d.surface i with flip := (d.surface i).flip.posting }).applyPoint true := by
  rw [Device.deliverPost, offerIdle_stopped]
  exact h

theorem postAtHead_refused (d : Device) (hw : Word) (st : Status) (h : d.handleRefusal (handleOf hw) = some st) :
    postAtHead [hw] d = (d, refusal st) := by
  simp [postAtHead, h]

theorem postAtHead_single (d : Device) (hw : Word) (h : d.handleRefusal (handleOf hw) = none)
    (hb : (d.surface (handleOf hw).slot).buffering = .single) : postAtHead [hw] d = (d, refusal .badState) := by
  simp [postAtHead, h, hb]

/-- POST to a DOUBLE surface with an accepted handle. -/
theorem postAtHead_double (d : Device) (hw : Word) (h : d.handleRefusal (handleOf hw) = none)
    (hb : (d.surface (handleOf hw).slot).buffering = .double) : postAtHead [hw] d =
      if d.underBurst (handleOf hw) then (d, refusal .busy)
      else if (d.surface (handleOf hw).slot).flip.leavesWritable then
        (d.deliverPost (handleOf hw).slot,
          okReply [wordOf (flipCode ((d.deliverPost (handleOf hw).slot).surface (handleOf hw).slot).flip)])
      else (d, refusal .badState) := by
  simp only [postAtHead, h]
  exact if_neg (buffering_double_ne _ hb)

theorem postAtHead_busy (d : Device) (hw : Word) (h : d.handleRefusal (handleOf hw) = none)
    (hb : (d.surface (handleOf hw).slot).buffering = .double) (hu : d.underBurst (handleOf hw) = true) :
    postAtHead [hw] d = (d, refusal .busy) := by
  rw [postAtHead_double d hw h hb, if_pos hu]

theorem postAtHead_posted (d : Device) (hw : Word) (h : d.handleRefusal (handleOf hw) = none)
    (hb : (d.surface (handleOf hw).slot).buffering = .double) (hu : d.underBurst (handleOf hw) = false)
    (hf : (d.surface (handleOf hw).slot).flip = .posted ∨ (d.surface (handleOf hw).slot).flip = .shownHeld) :
    postAtHead [hw] d = (d, refusal .badState) := by
  simp [postAtHead_double d hw h hb, hu, (leavesWritable_false_iff _).2 hf]

theorem postAtHead_delivered (d : Device) (hw : Word) (h : d.handleRefusal (handleOf hw) = none)
    (hb : (d.surface (handleOf hw).slot).buffering = .double) (hu : d.underBurst (handleOf hw) = false)
    (hf : (d.surface (handleOf hw).slot).flip = .none ∨ (d.surface (handleOf hw).slot).flip = .shown) :
    postAtHead [hw] d = (d.deliverPost (handleOf hw).slot,
      okReply [wordOf (flipCode ((d.deliverPost (handleOf hw).slot).surface (handleOf hw).slot).flip)]) := by
  simp [postAtHead_double d hw h hb, hu, (leavesWritable_iff _).2 hf]

/-- The code of the flip state that a post leaves, when no apply point follows it. -/
theorem wordOf_flipCode_posting (f : FlipState) (h : f = .none ∨ f = .shown) :
    wordOf (flipCode f.posting) = if f = .none then 1 else 3 := by
  rcases h with rfl | rfl <;> rfl

/-- Settles O32: the refusals in their order, then the post, with the idle apply point only while STOPPED. -/
theorem postResult : Obligations.PostResult := by
  refine ⟨?command, fun d h hlaw => underBurst_iff d h hlaw⟩
  rintro s low hw h r hs hl rfl rfl
  have hexec {e r} (he : postAtHead [hw] s.dev = (e, r)) := exec_atHead .post postAtHead low [hw] s hs hl rfl he
  refine ⟨fun st h => hexec (postAtHead_refused s.dev hw st h), fun h hb => hexec (postAtHead_single s.dev hw h hb),
    fun h hb hu => hexec (postAtHead_busy s.dev hw h hb hu),
    fun h hb hu hf => hexec (postAtHead_posted s.dev hw h hb hu hf), fun h hb hu hf => ?delivered⟩
  rintro posted rfl
  have hpost := postAtHead_delivered s.dev hw h hb hu hf
  refine ⟨fun hrun => ?running, fun hstop => ?stopped⟩
  case running =>
    rw [deliverPost_not_stopped _ _ hrun, Device.setSurface_surface_self, wordOf_flipCode_posting _ hf,
      posting_eq _ hf] at hpost
    exact hexec hpost
  case stopped =>
    rw [deliverPost_stopped _ _ hstop, posting_eq _ hf] at hpost
    exact hexec hpost

/-! ## FILL and COPY_FORWARD (R144 to R146) -/

theorem decodeSelector_none (w : Word) (h : 1 < w.toNat) : decodeSelector w = none := by
  have hne : ∀ k : Word, k.toNat ≤ 1 → w ≠ k := by rintro k hk rfl; omega
  rw [decodeSelector, if_neg (hne 0 (by decide)), if_neg (hne 1 (by decide))]

/-- A selector word up to 1 names FRONT or BACK. -/
theorem decodeSelector_some (w : Word) (h : w.toNat ≤ 1) :
    decodeSelector w = some (if w = 0 then .front else .back) := by
  have hw : w = BitVec.ofNat 16 w.toNat := (BitVec.ofNat_toNat 16 w).symm
  rw [hw]
  interval_cases w.toNat <;> rfl

theorem contains_iff (r : Surface) (x y w ht : Word) : r.contains (rectOf x y w ht) = true ↔
    1 ≤ w.toNat ∧ 1 ≤ ht.toNat ∧ x.toNat + w.toNat ≤ r.width ∧ y.toNat + ht.toNat ≤ r.height := by
  simp only [Surface.contains, Bool.and_eq_true, decide_eq_true_eq, and_assoc]
  rfl

theorem fillAtHead_refused (d : Device) (hw sel x y w ht colour : Word) (st : Status)
    (h : d.handleRefusal (handleOf hw) = some st) : fillAtHead [hw, sel, x, y, w, ht, colour] d = (d, refusal st) := by
  simp [fillAtHead, h]

/-- Checks 3 to 5 of FILL. -/
theorem fillAtHead_badParam (d : Device) (hw sel x y w ht colour : Word) (h : d.handleRefusal (handleOf hw) = none)
    (hbad : 1 < sel.toNat ∨ ((d.surface (handleOf hw).slot).buffering = .double ∧ sel = 0)
      ∨ (d.surface (handleOf hw).slot).contains (rectOf x y w ht) = false) :
    fillAtHead [hw, sel, x, y, w, ht, colour] d = (d, refusal .badParam) := by
  by_cases hsel : 1 < sel.toNat
  · simp [fillAtHead, h, decodeSelector_none sel hsel]
  · simp only [fillAtHead, h, decodeSelector_some sel (Nat.not_lt.1 hsel)]
    rcases hbad with hout | ⟨hb, h0⟩ | hout
    · exact absurd hout hsel
    · simp [hb, h0]
    · simp [hout]

/-- FILL once its words have been accepted. -/
theorem fillAtHead_accepted (d : Device) (hw sel x y w ht colour : Word) (h : d.handleRefusal (handleOf hw) = none)
    (hsel : sel.toNat ≤ 1) (hside : (d.surface (handleOf hw).slot).buffering = .double → sel = 1)
    (hin : (d.surface (handleOf hw).slot).contains (rectOf x y w ht) = true) :
    fillAtHead [hw, sel, x, y, w, ht, colour] d =
      if d.underBurst (handleOf hw) then (d, refusal .busy)
      else if (d.surface (handleOf hw).slot).flip.leavesWritable then
        (d.admitJob (.fill colour) (handleOf hw) (d.surface (handleOf hw).slot).writeBuffer (rectOf x y w ht),
          okReply [d.engine.nextId.setWidth 16])
      else (d, refusal .badState) := by
  have hback : ¬ ((d.surface (handleOf hw).slot).buffering = .double
      ∧ (if sel = 0 then Selector.front else .back) = .front) := by
    rintro ⟨hb, hf⟩
    rw [hside hb] at hf
    exact absurd hf (by decide)
  simp only [fillAtHead, h, decodeSelector_some sel hsel, hin]
  exact if_neg hback

theorem copyForwardAtHead_refused (d : Device) (hw x y w ht : Word) (st : Status)
    (h : d.handleRefusal (handleOf hw) = some st) : copyForwardAtHead [hw, x, y, w, ht] d = (d, refusal st) := by
  simp [copyForwardAtHead, h]

theorem copyForwardAtHead_single (d : Device) (hw x y w ht : Word) (h : d.handleRefusal (handleOf hw) = none)
    (hb : (d.surface (handleOf hw).slot).buffering = .single) :
    copyForwardAtHead [hw, x, y, w, ht] d = (d, refusal .badState) := by
  simp [copyForwardAtHead, h, hb]

theorem copyForwardAtHead_badParam (d : Device) (hw x y w ht : Word) (h : d.handleRefusal (handleOf hw) = none)
    (hb : (d.surface (handleOf hw).slot).buffering = .double)
    (hout : (d.surface (handleOf hw).slot).contains (rectOf x y w ht) = false) :
    copyForwardAtHead [hw, x, y, w, ht] d = (d, refusal .badParam) := by
  simp [copyForwardAtHead, h, hb, hout]

theorem writeBuffer_double (r : Surface) (h : r.buffering = .double) : r.writeBuffer = r.front.other := by
  simp [Surface.writeBuffer, h]

/-- COPY_FORWARD once its words have been accepted. -/
theorem copyForwardAtHead_accepted (d : Device) (hw x y w ht : Word) (h : d.handleRefusal (handleOf hw) = none)
    (hb : (d.surface (handleOf hw).slot).buffering = .double)
    (hin : (d.surface (handleOf hw).slot).contains (rectOf x y w ht) = true) :
    copyForwardAtHead [hw, x, y, w, ht] d =
      if d.underBurst (handleOf hw) then (d, refusal .busy)
      else if (d.surface (handleOf hw).slot).flip.leavesWritable then
        (d.admitJob (.copyForward (d.surface (handleOf hw).slot).front) (handleOf hw)
            (d.surface (handleOf hw).slot).front.other (rectOf x y w ht),
          okReply [d.engine.nextId.setWidth 16])
      else (d, refusal .badState) := by
  simp only [copyForwardAtHead, h, hin, writeBuffer_double _ hb]
  exact if_neg (buffering_double_ne _ hb)

/-- Settles O44: the refusals in their order, then the one job admitted. -/
theorem jobCommands : Obligations.JobCommands := by
  rintro s low hw x y w ht h r hs hroom rfl rfl inside hinside
  rw [← contains_iff] at hinside
  have hready : s.dev.classReady (.job 1) = true := (classReady_job_iff s.dev 1).2 hroom
  have hout : ¬ inside → (s.dev.surface (handleOf hw).slot).contains (rectOf x y w ht) = false := fun hno => by
    rwa [hinside, Bool.not_eq_true] at hno
  refine ⟨fun hl sel colour => ?fill, fun hl => ?copy⟩
  case fill =>
    have hexec {e r} (he : fillAtHead [hw, sel, x, y, w, ht, colour] s.dev = (e, r)) :=
      exec_atHead .fill fillAtHead low [hw, sel, x, y, w, ht, colour] s hs hl hready he
    refine ⟨fun st h => hexec (fillAtHead_refused s.dev hw sel x y w ht colour st h), fun h =>
      ⟨fun hbad => hexec (fillAtHead_badParam s.dev hw sel x y w ht colour h (hbad.imp_right (Or.imp_right hout))),
        fun hsel hside hin => ?fillAccepted⟩⟩
    have haccept := fillAtHead_accepted s.dev hw sel x y w ht colour h hsel hside (hinside.1 hin)
    refine ⟨fun hu => hexec ?_, fun hu hf => hexec ?_, fun hu hf => hexec ?_⟩
    · rw [haccept, if_pos hu]
    · simp [haccept, hu, (leavesWritable_false_iff _).2 hf]
    · simp [haccept, hu, (leavesWritable_iff _).2 hf, rectOf]
  case copy =>
    have hexec {e r} (he : copyForwardAtHead [hw, x, y, w, ht] s.dev = (e, r)) :=
      exec_atHead .copyForward copyForwardAtHead low [hw, x, y, w, ht] s hs hl hready he
    refine ⟨fun st h => hexec (copyForwardAtHead_refused s.dev hw x y w ht st h), fun h =>
      ⟨fun hb => hexec (copyForwardAtHead_single s.dev hw x y w ht h hb),
        fun hb hno => hexec (copyForwardAtHead_badParam s.dev hw x y w ht h hb (hout hno)), fun hb hin => ?copyAccepted⟩⟩
    have haccept := copyForwardAtHead_accepted s.dev hw x y w ht h hb (hinside.1 hin)
    refine ⟨fun hu => hexec ?_, fun hu hf => hexec ?_, fun hu hf => hexec ?_⟩
    · rw [haccept, if_pos hu]
    · simp [haccept, hu, (leavesWritable_false_iff _).2 hf]
    · simp [haccept, hu, (leavesWritable_iff _).2 hf, rectOf]

/-! ## PIXEL_READ (R37, R38) -/

theorem pixelReadAtHead_badHandle (d : Device) (hw sel x y : Word) (h : d.validHandle (handleOf hw) = false) :
    pixelReadAtHead [hw, sel, x, y] d = (d, some (refusal .badHandle)) := by
  simp [pixelReadAtHead, h]

theorem pixelReadAtHead_badParam (d : Device) (hw sel x y : Word) (h : d.validHandle (handleOf hw) = true)
    (hbad : 1 < sel.toNat ∨ (d.surface (handleOf hw).slot).width ≤ x.toNat
      ∨ (d.surface (handleOf hw).slot).height ≤ y.toNat) :
    pixelReadAtHead [hw, sel, x, y] d = (d, some (refusal .badParam)) := by
  by_cases hsel : 1 < sel.toNat
  · simp [pixelReadAtHead, h, decodeSelector_none sel hsel]
  · have hout : ¬ (x.toNat < (d.surface (handleOf hw).slot).width
        ∧ y.toNat < (d.surface (handleOf hw).slot).height) := by omega
    simp only [pixelReadAtHead, h, decodeSelector_some sel (Nat.not_lt.1 hsel), if_true, if_neg hout]

/-- The buffer that PIXEL_READ reads (R37). -/
theorem selected_eq (r : Surface) (sel : Word) : r.selected (if sel = 0 then .front else .back)
    = if r.buffering = .single then .a else if sel = 0 then r.front else r.front.other := by
  cases hb : r.buffering with
  | single => simp [Surface.selected, hb]
  | double => by_cases hsel : sel = 0 <;> simp only [Surface.selected, hb, hsel] <;> rfl

theorem pixelReadAtHead_begins (d : Device) (hw sel x y : Word) (buffer : BufferId)
    (h : d.validHandle (handleOf hw) = true) (hsel : sel.toNat ≤ 1)
    (hx : x.toNat < (d.surface (handleOf hw).slot).width) (hy : y.toNat < (d.surface (handleOf hw).slot).height)
    (hbuffer : buffer = if (d.surface (handleOf hw).slot).buffering = .single then .a
      else if sel = 0 then (d.surface (handleOf hw).slot).front else (d.surface (handleOf hw).slot).front.other) :
    pixelReadAtHead [hw, sel, x, y] d
      = ({ d with pixelRead := some ⟨(d.surface (handleOf hw).slot).pixelAt buffer x.toNat y.toNat, buffer⟩ },
          none) := by
  simp only [pixelReadAtHead, h, decodeSelector_some sel hsel, selected_eq, ← hbuffer, if_true, hx, hy, and_self]

/-- A PIXEL_READ that passes its checks is queued whole, executes as the head, and stays there without an answer, since
nothing executes while it is in execution (R38, R160). -/
theorem sendCommand_pixelRead (d : Device) (code low : Byte) (params : List Word) (op : PixelReadOp)
    (h : d.takesCommands = true) (hf : framed low params = true)
    (hc : d.classReady (waitClass ⟨d.control.nextSeq, commandWord code low, params⟩) = true)
    (he : headEffect ⟨d.control.nextSeq, commandWord code low, params⟩ d = ({ d with pixelRead := some op }, none)) :
    d.sendCommand code low params = { d.queueing (commandWord code low) params with pixelRead := some op } := by
  obtain ⟨hr, ha, hq, hp, hroom⟩ := (takesCommands_iff d).1 h
  have hlen : params.length + 1 = admissionLength (commandWord 0 low) := beq_iff_eq.1 hf
  have hfit : admissionLength (commandWord 0 low) ≤ d.freeWords := by
    have hle := admissionLength_le (commandWord 0 low)
    have hfree : d.freeWords = 64 := by simp [Device.freeWords, Device.heldWords, hq, Config.commandWords]
    omega
  have hready : d.headReady ⟨d.control.nextSeq, commandWord code low, params⟩ = true := by
    refine (headReady_iff d _).2 ⟨hp, ?_, (responseRoom_iff d).1 hroom, hc⟩
    rw [admissionLength_commandWord, hlen]
  have hd : d.queueing (commandWord code low) params
      = d.withQueue none [⟨d.control.nextSeq, commandWord code low, params⟩] (d.control.nextSeq + 1) := by
    simp only [Device.queueing, hq, List.nil_append, Device.withQueue]
  rw [sendCommand_eq d code low params hr ha hf hfit (by simp [hq]), hd,
    settle_cons _ _ [] rfl (by rw [withQueue_headReady]; exact hready), executeHead, headEffect_blind, he,
    settle_headsWait]
  · rfl
  · intro q _
    rfl

/-- The frame and the class of a whole PIXEL_READ, and its effect when it begins. -/
theorem exec_pixelRead_begins (s : State) (low : Byte) (hw sel x y : Word) (op : PixelReadOp)
    (hs : s.dev.takesCommands = true) (hl : declares low 5 = true)
    (he : pixelReadAtHead [hw, sel, x, y] s.dev = ({ s.dev with pixelRead := some op }, none)) :
    exec (.pixelRead low [hw, sel, x, y]) s
      = .next (s.withDevice { s.dev.queueing (commandWord 0x09 low) [hw, sel, x, y] with pixelRead := some op }) := by
  have hadm : admissionLength (commandWord 0 low) = 5 := admissionLength_of_declares low 5 (by decide) (by decide) hl
  have hf : framed low [hw, sel, x, y] = true := by rw [framed, hadm]; rfl
  have hfield : low.toNat % 16 = 5 := by simpa using (declares_iff low 5).1 hl
  have hfits : lengthFits .pixelRead ⟨s.dev.control.nextSeq, commandWord (commandCode .pixelRead) low, [hw, sel, x, y]⟩
      = true := by
    rw [lengthFits, QueuedCommand.held, admissionLength_commandWord, hadm, lengthField_low, hfield]; rfl
  refine congrArg (fun d => Host.Outcome.next (s.withDevice d))
    (sendCommand_pixelRead s.dev (commandCode .pixelRead) low [hw, sel, x, y] op hs hf ?_ ?_)
  · rw [waitClass_row .pixelRead _ low _ hf]; rfl
  · simp only [headEffect, opcodeField_commandWord, commandOf_commandCode, hfits, if_true, runCommand, he]

/-- PIXEL_READ_COMPLETE (R34, R38). -/
theorem exec_pixelReadComplete (s : State) : exec .pixelReadComplete s = .next (s.withDevice
    (if s.dev.grants (.rotating .pixelRead) then s.dev.completePixelRead.settle else s.dev)) := rfl

theorem completePixelRead_eq (d : Device) (r : PixelReadOp) (q : QueuedCommand) (rest : List QueuedCommand)
    (hr : d.pixelRead = some r) (hq : d.control.commands = q :: rest) :
    d.completePixelRead = { d with
      pixelRead := none
      rotation := .pixelRead
      control := { d.control with
        commands := rest
        responses := d.control.responses
          ++ [⟨q.seq, .ok, opcodeField q.word0, [d.store.readPixel r.pos, wordOf (bufferCode r.buffer)]⟩] } } := by
  simp only [Device.completePixelRead, hr, Device.respond, hq]
  rfl

/-- Settles O17: the refusals are answered at once, a read that begins stays at the head, and its grant answers it. -/
theorem pixelReadTaken : Obligations.PixelReadTaken := by
  refine ⟨?command, fun s => ⟨fun r q rest hr hq hg => ?granted, fun hg => ?notGranted⟩⟩
  case command =>
    rintro s low hw sel x y r hs hl rfl
    have hanswer {r} (he : pixelReadAtHead [hw, sel, x, y] s.dev = (s.dev, some r)) :=
      exec_command .pixelRead low [hw, sel, x, y] s hs hl rfl rfl s.dev r he
    exact ⟨fun h => hanswer (pixelReadAtHead_badHandle s.dev hw sel x y h),
      fun h hbad => hanswer (pixelReadAtHead_badParam s.dev hw sel x y h hbad),
      fun h hsel hx hy buffer hbuffer => exec_pixelRead_begins s low hw sel x y _ hs hl
        (pixelReadAtHead_begins s.dev hw sel x y buffer h hsel hx hy hbuffer)⟩
  case granted => rw [exec_pixelReadComplete, if_pos hg, completePixelRead_eq s.dev r q rest hr hq]
  case notGranted => rw [exec_pixelReadComplete, hg]; rfl

end Sys2Proof.Machine
end

section
/-! OPEN (R8 to R12) and CLOSE (R13 to R16) at the head of the command queue. -/

namespace Sys2Proof.Machine

/-! ## What OPEN looks at -/

/-- In a list kept ascending, the first member that meets a test is the lowest one. -/
theorem find_lowest (l : List Slot) (hl : l.Pairwise (· < ·)) (p : Slot → Bool) (i : Slot) (hi : i ∈ l) (hp : p i = true)
    (hlow : ∀ j < i, p j = false) : l.find? p = some i := by
  induction l with
  | nil => exact nomatch hi
  | cons j l ih =>
    obtain ⟨hj, hl⟩ := List.pairwise_cons.1 hl
    rcases List.mem_cons.1 hi with rfl | hmem
    · exact List.find?_cons_of_pos hp
    · rw [List.find?_cons_of_neg (by simp [hlow j (hj i hmem)]), ih hl hmem]

/-- The slot that OPEN takes is the lowest FREE one (R9). -/
theorem freeSlot_eq_some (d : Device) (i : Slot) (hi : (d.surface i).state = .free)
    (hlow : ∀ j < i, (d.surface j).state ≠ .free) : d.freeSlot = some i :=
  find_lowest allSlots allSlots_sorted _ i (List.mem_finRange i) (beq_iff_eq.2 hi) fun j hj =>
    beq_eq_false_iff_ne.2 (hlow j hj)

theorem freeSlot_eq_none (d : Device) (h : ∀ i, (d.surface i).state ≠ .free) : d.freeSlot = none :=
  List.find?_eq_none.2 fun i _ => by simp [h i]

theorem openInRange_iff (sw sh x y : Word) : openInRange sw sh x y = true ↔
    1 ≤ sw.toNat ∧ sw.toNat ≤ 1024 ∧ 1 ≤ sh.toNat ∧ sh.toNat ≤ 1024 ∧ x.toNat ≤ 2047 ∧ y.toNat ≤ 2047 := by
  simp only [openInRange, Bool.and_eq_true, decide_eq_true_eq, and_assoc]

theorem slabsFor_bounds (w h : Nat) : w * h ≤ slabsFor w h * 4096 ∧ slabsFor w h * 4096 < w * h + 4096 := by
  have hdef : slabsFor w h = (w * h + 4095) / 4096 := rfl
  generalize w * h = area at *
  omega

/-- The buffering field of a mode word reads DOUBLE exactly in the mode of a DOUBLE surface. -/
theorem mode_buffering_field (mw : Word) (mode : OpenMode) (h : decodeMode mw = some mode) :
    fieldOf mw 0 2 = 1 ↔ mode.buffering = .double := by
  have hword := congrArg BitVec.toNat ((decodeMode_eq_some_iff mw mode).1 h)
  have hdouble : (mode.buffering == .double).toNat = 1 ↔ mode.buffering = .double := by
    cases mode.buffering <;> decide
  have hlt := bool_toNat_lt_two (mode.buffering == .double)
  rw [modeWord_toNat] at hword
  rw [fieldOf_eq, pow_zero, Nat.div_one, ← hdouble]
  omega

/-- An OPEN is job-class only with the fill flag, and then needs a place for each job (R161). -/
theorem classReady_open (d : Device) (mw sw sh x y lw colour : Word)
    (h : mw.getLsbD 8 = true → d.engine.jobs.length + (if fieldOf mw 0 2 = 1 then 2 else 1) ≤ 4) :
    d.classReady (classOf .openSurface [mw, sw, sh, x, y, lw, colour]) = true := by
  cases hfill : mw.getLsbD 8 with
  | false => simp only [classOf, hfill, Bool.false_eq_true, and_false, if_false]; rfl
  | true =>
    have hclass : classOf .openSurface [mw, sw, sh, x, y, lw, colour]
        = .job (if fieldOf mw 0 2 = 1 then 2 else 1) := by
      simp [classOf, hfill, apply_ite WaitClass.job]
    rw [hclass, classReady_job_iff]
    exact h hfill

/-! ## OPEN (R8 to R12) -/

theorem openAtHead_badParam (d : Device) (mw sw sh x y lw colour : Word)
    (h : decodeMode mw = none ∨ decodeLook lw = none ∨ openInRange sw sh x y = false) :
    openAtHead [mw, sw, sh, x, y, lw, colour] d = (d, refusal .badParam) := by
  cases hm : decodeMode mw with
  | none => simp [openAtHead, hm]
  | some mode =>
    cases hk : decodeLook lw with
    | none => simp [openAtHead, hm, hk]
    | some look =>
      have hout : openInRange sw sh x y = false := by simpa [hm, hk] using h
      simp [openAtHead, hm, hk, hout]

/-! OPEN once its words have been accepted: the free slot, then the free slabs. -/

theorem openAtHead_noSlot (d : Device) (mw sw sh x y lw colour : Word) (mode : OpenMode) (look : Look)
    (hm : decodeMode mw = some mode) (hk : decodeLook lw = some look) (hin : openInRange sw sh x y = true)
    (hi : d.freeSlot = none) : openAtHead [mw, sw, sh, x, y, lw, colour] d = (d, refusal .noSpace) := by
  simp only [openAtHead, hm, hk, hin, if_true, hi]

theorem openAtHead_noSlabs (d : Device) (mw sw sh x y lw colour : Word) (mode : OpenMode) (look : Look) (i : Slot)
    (hm : decodeMode mw = some mode) (hk : decodeLook lw = some look) (hin : openInRange sw sh x y = true)
    (hi : d.freeSlot = some i)
    (hslabs : d.freeSlabs.length < slabsWanted mode.buffering (slabsFor sw.toNat sh.toNat)) :
    openAtHead [mw, sw, sh, x, y, lw, colour] d = (d, refusal .noSpace) := by
  simp only [openAtHead, hm, hk, hin, if_true, hi]
  exact if_pos hslabs

theorem openAtHead_opened (d : Device) (mw sw sh x y lw colour : Word) (mode : OpenMode) (look : Look) (i : Slot)
    (hm : decodeMode mw = some mode) (hk : decodeLook lw = some look) (hin : openInRange sw sh x y = true)
    (hi : d.freeSlot = some i)
    (hslabs : slabsWanted mode.buffering (slabsFor sw.toNat sh.toNat) ≤ d.freeSlabs.length) :
    openAtHead [mw, sw, sh, x, y, lw, colour] d =
      (if mode.fill then (d.takeSlot i mode look sw.toNat sh.toNat x.toNat y.toNat).openingFills i colour
        else d.takeSlot i mode look sw.toNat sh.toNat x.toNat y.toNat,
        okReply (handleWord ((d.takeSlot i mode look sw.toNat sh.toNat x.toNat y.toNat).handleAt i)
          :: wordOf (slabsFor sw.toNat sh.toNat) :: openJobIds mode d.engine.nextId)) := by
  simp only [openAtHead, hm, hk, hin, if_true, hi]
  exact if_neg (Nat.not_lt.2 hslabs)

/-- The slot taken holds the record of a surface just opened. -/
theorem takeSlot_surface_self (d : Device) (i : Slot) (mode : OpenMode) (look : Look) (sw sh x y : Nat) :
    (d.takeSlot i mode look sw sh x y).surface i = Surface.opened (d.surface i) mode look sw sh x y
      (d.freeSlabs.take (slabsWanted mode.buffering (slabsFor sw sh))) (slabsFor sw sh) :=
  Device.setSurface_surface_self _ i _

theorem takeSlot_handleAt (d : Device) (i : Slot) (mode : OpenMode) (look : Look) (sw sh x y : Nat) :
    (d.takeSlot i mode look sw sh x y).handleAt i = ⟨i, nextGeneration (d.surface i).generation⟩ := by
  rw [Device.handleAt, takeSlot_surface_self]; rfl

/-- Buffer A has the first slabs of the pool, and buffer B of a DOUBLE surface the next ones (R10, R11). -/
theorem opened_buffers (old : Surface) (mode : OpenMode) (look : Look) (sw sh x y n : Nat) (pool : List Slab) :
    (Surface.opened old mode look sw sh x y (pool.take (slabsWanted mode.buffering n)) n).bufferA = pool.take n
    ∧ (Surface.opened old mode look sw sh x y (pool.take (slabsWanted mode.buffering n)) n).bufferB
      = if mode.buffering = .single then none else some ((pool.drop n).take n) := by
  cases hb : mode.buffering with
  | single => simp [Surface.opened, hb, slabsWanted]
  | double =>
    simp [Surface.opened, hb, slabsWanted, List.take_take, List.drop_take, show 2 * n - n = n by omega,
      show min n (2 * n) = n by omega]

/-- The whole state after a slot is taken. -/
theorem takeSlot_eq (d : Device) (i : Slot) (mode : OpenMode) (look : Look) (sw sh x y : Nat) :
    d.takeSlot i mode look sw sh x y = { d with
      freeSlabs := d.freeSlabs.drop (slabsWanted mode.buffering (slabsFor sw sh))
      surfaces := d.surfaces.set i
        { state := .dormant
          generation := if (d.surface i).generation = 255 then 1 else (d.surface i).generation + 1
          buffering := mode.buffering
          orientation := mode.orientation
          sourceWidth := sw
          sourceHeight := sh
          bufferA := d.freeSlabs.take (slabsFor sw sh)
          bufferB := if mode.buffering = .single then none
            else some ((d.freeSlabs.drop (slabsFor sw sh)).take (slabsFor sw sh))
          front := .a
          committed := ⟨x, y, look.opacity, look.tag⟩
          pendingLook := ⟨x, y, look.opacity, look.tag⟩
          flip := .none
          noticeTag := 0
          flipCount := 0 } } := by
  obtain ⟨ha, hb⟩ := opened_buffers (d.surface i) mode look sw sh x y (slabsFor sw sh) d.freeSlabs
  rw [← ha, ← hb]
  rfl

/-- Settles O11: the checks of OPEN in their order, and the state that a taken slot leaves. -/
theorem openResult : Obligations.OpenResult := by
  refine ⟨fun n => ⟨rfl, rfl⟩, slabsFor_bounds, fun g => rfl, fun s low mw sw sh x y lw colour hs hl hplaces => ?_⟩
  have hexec {e r} (he : openAtHead [mw, sw, sh, x, y, lw, colour] s.dev = (e, r)) :=
    exec_atHead .openSurface openAtHead low [mw, sw, sh, x, y, lw, colour] s hs hl
      (classReady_open s.dev mw sw sh x y lw colour hplaces) he
  refine ⟨fun hbad => hexec (openAtHead_badParam s.dev mw sw sh x y lw colour ?badParam),
    fun mode look hm hk h1 h2 h3 h4 h5 h6 => ?accepted⟩
  case badParam =>
    refine hbad.imp_right (Or.imp_right fun hout => ?_)
    rw [← Bool.not_eq_true, openInRange_iff]
    omega
  case accepted =>
    have hin := (openInRange_iff sw sh x y).2 ⟨h1, h2, h3, h4, h5, h6⟩
    refine ⟨fun hnone => hexec (openAtHead_noSlot s.dev mw sw sh x y lw colour mode look hm hk hin
      (freeSlot_eq_none s.dev hnone)), fun i hi hlow => ?slot⟩
    have hslot := freeSlot_eq_some s.dev i hi hlow
    refine ⟨fun hfew => hexec (openAtHead_noSlabs s.dev mw sw sh x y lw colour mode look i hm hk hin hslot hfew),
      fun henough opened hopened => ?opened⟩
    have htaken := (takeSlot_eq s.dev i mode look sw.toNat sh.toNat x.toNat y.toNat).trans hopened.symm
    refine ⟨htaken, fun hfill => hexec ?_⟩
    rw [openAtHead_opened s.dev mw sw sh x y lw colour mode look i hm hk hin hslot henough, takeSlot_handleAt, htaken]
    simp [hfill, openJobIds]

/-! ## The fill jobs (R12) -/

theorem openingFills_single (d : Device) (i : Slot) (colour : Pixel) (h : (d.surface i).buffering = .single) :
    d.openingFills i colour = d.admitJob (.fill colour) (d.handleAt i) .a (d.surface i).wholeRect := by
  simp [Device.openingFills, h]

theorem openingFills_double (d : Device) (i : Slot) (colour : Pixel) (h : (d.surface i).buffering = .double) :
    d.openingFills i colour = (d.admitJob (.fill colour) (d.handleAt i) .a (d.surface i).wholeRect).admitJob
      (.fill colour) (d.handleAt i) .b (d.surface i).wholeRect := by
  simp [Device.openingFills, h]

/-- Settles O12: the slot is taken as without the fill flag, and the jobs are admitted for it. -/
theorem openFillResult : Obligations.OpenFillResult := by
  rintro s low mw sw sh x y lw colour mode look i hs hl hm hk hfill hplaces h1 h2 h3 h4 h5 h6 hi hlow henough opened h
    whole rfl rfl rfl
  have hready := classReady_open s.dev mw sw sh x y lw colour fun _ => by
    simpa only [mode_buffering_field mw mode hm] using hplaces
  have hopen := openAtHead_opened s.dev mw sw sh x y lw colour mode look i hm hk
    ((openInRange_iff sw sh x y).2 ⟨h1, h2, h3, h4, h5, h6⟩) (freeSlot_eq_some s.dev i hi hlow) henough
  have hbuffering : ((s.dev.takeSlot i mode look sw.toNat sh.toNat x.toNat y.toNat).surface i).buffering
      = mode.buffering := by rw [takeSlot_surface_self]; rfl
  rw [if_pos hfill] at hopen
  refine ⟨fun hb => ?single, fun hb => ?double⟩
  case single =>
    rw [openingFills_single _ _ _ (hbuffering.trans hb), takeSlot_handleAt, openJobIds, if_pos hfill, hb] at hopen
    exact exec_atHead .openSurface openAtHead low _ s hs hl hready hopen
  case double =>
    rw [openingFills_double _ _ _ (hbuffering.trans hb), takeSlot_handleAt, openJobIds, if_pos hfill, hb] at hopen
    exact exec_atHead .openSurface openAtHead low _ s hs hl hready hopen

/-! ## CLOSE (R13, R15, R16, R152) -/

theorem closeAtHead_refused (d : Device) (hw : Word) (st : Status) (h : d.handleRefusal (handleOf hw) = some st) :
    closeAtHead [hw] d = (d, refusal st) := by
  simp [closeAtHead, h]

theorem closeAtHead_staged (d : Device) (hw : Word) (h : d.handleRefusal (handleOf hw) = none)
    (hlive : (d.surface (handleOf hw).slot).state = .live) :
    closeAtHead [hw] d = (d.closeStaged (handleOf hw), okReply [1]) := by
  simp [closeAtHead, h, hlive]

theorem closeAtHead_immediate (d : Device) (hw : Word) (h : d.handleRefusal (handleOf hw) = none)
    (hlive : (d.surface (handleOf hw).slot).state ≠ .live) :
    closeAtHead [hw] d = (d.closeImmediate (handleOf hw), okReply [0]) := by
  simp [closeAtHead, h, hlive]

/-- Settles O13: both forms are the withdrawals and the new state, then the records of the aborted jobs. -/
theorem closeResult : Obligations.CloseResult := by
  rintro s low hw h withdrawn aborted hs hl ho rfl rfl rfl
  have hexec {e r} (he : closeAtHead [hw] s.dev = (e, r)) :=
    exec_atHead .closeSurface closeAtHead low [hw] s hs hl ((classReady_staging_iff s.dev).2 ho) he
  exact ⟨fun st h => hexec (closeAtHead_refused s.dev hw st h),
    fun h hlive => hexec (closeAtHead_staged s.dev hw h hlive),
    fun h hlive => hexec (closeAtHead_immediate s.dev hw h hlive)⟩

end Sys2Proof.Machine
end

section
/-! Headers and bursts that end early (R128, R134, R135): IDLE_TIMEOUT, the resets of a port, and what BIND, UNBIND and
CLOSE do to the ports. -/

namespace Sys2Proof.Machine

/-! ## A port that is cut short, as one update -/

/-- A port whose header or burst has been cut short with an error (R128, R130, R134, R135). -/
def Port.ended (p : Port) (cause : PortError) : Port :=
  { p with
    state := .discarding
    header := []
    burst := none
    writeRequest := none
    interval := none
    lastError := cause
    errorCount := if p.errorCount < 255 then p.errorCount + 1 else 255 }

/-- The device with a port replaced and its PORTn latched (R130). -/
def Device.withEnded (d : Device) (n : PortNum) (p : Port) : Device :=
  { d with
    ports := d.ports.set n p
    events := { d.events with latched := d.events.latched ||| bitsAt 1 (6 + n.val) } }

/-- The device after the write of a client was granted first or not, as the free value says (R35, log 3). -/
def Device.withGrant (d : Device) (n : PortNum) (r : WriteRequest) : Device :=
  { d with
    freeIndex := d.freeIndex + 1
    store := if Config.grantTakenFirst d.freeIndex then d.store.writePixel r.pos r.pixel else d.store
    rotation := if Config.grantTakenFirst d.freeIndex then .port n else d.rotation }

theorem inProgress_iff (st : PortState) : st.inProgress = true ↔ st = .header ∨ st = .stalled ∨ st = .pixels := by
  cases st <;> decide

theorem inProgress_false_iff (st : PortState) : st.inProgress = false ↔ st = .idle ∨ st = .discarding := by
  cases st <;> decide

theorem cutShort_eq_ended (d : Device) (n : PortNum) (c : PortError) :
    d.cutShort n c = d.withEnded n ((d.port n).ended c) := cutShort_eq d n c _ rfl

/-- Whether a port's write waits and is the one the arbiter grants next. -/
theorem grant_cases (d : Device) (n : PortNum) :
    ((d.port n).writeRequest = none ∨ d.grants (.rotating (.port n)) = false)
      ∨ ∃ r, (d.port n).writeRequest = some r ∧ d.grants (.rotating (.port n)) = true := by
  cases hr : (d.port n).writeRequest with
  | none => exact .inl (.inl rfl)
  | some r =>
    cases hg : d.grants (.rotating (.port n)) with
    | false => exact .inl (.inr rfl)
    | true => exact .inr ⟨r, rfl, rfl⟩

/-- An early end, when the port's write is not the one granted next. -/
theorem endEarly_eq_ended (d : Device) (n : PortNum) (c : PortError)
    (h : (d.port n).writeRequest = none ∨ d.grants (.rotating (.port n)) = false) :
    d.endEarly n c = d.withEnded n ((d.port n).ended c) := by
  rw [endEarly_plain d n c h, cutShort_eq_ended]

/-- An early end, when the port's write is the one granted next. -/
theorem endEarly_eq_granted (d : Device) (n : PortNum) (c : PortError) (r : WriteRequest)
    (hr : (d.port n).writeRequest = some r) (hg : d.grants (.rotating (.port n)) = true) :
    d.endEarly n c = (d.withEnded n ((d.port n).ended c)).withGrant n r := by
  rw [endEarly_granted d n c r hr hg, cutShort_eq_ended]
  rfl

@[simp] theorem withEnded_port_self (d : Device) (n : PortNum) (p : Port) : (d.withEnded n p).port n = p :=
  Device.setPort_port_self d n p

@[simp] theorem withGrant_port (d : Device) (n m : PortNum) (r : WriteRequest) : (d.withGrant n r).port m = d.port m :=
  rfl

/-- The port cut short is replaced once more. -/
theorem withEnded_setPort (d : Device) (n : PortNum) (p q : Port) :
    (d.withEnded n p).setPort n q = d.withEnded n q := by
  simp [Device.withEnded, Device.setPort]

theorem withGrant_setPort (d : Device) (n : PortNum) (r : WriteRequest) (q : Port) :
    (d.withGrant n r).setPort n q = (d.setPort n q).withGrant n r := rfl

/-- A write granted first or not leaves every other pixel. -/
theorem withGrant_readPixel (d : Device) (n : PortNum) (r : WriteRequest) (hm : Memory.wf d.store) (q : PixelPos)
    (hq : q ≠ r.pos) : (d.withGrant n r).store.readPixel q = d.store.readPixel q := by
  change Memory.readPixel (if Config.grantTakenFirst d.freeIndex then d.store.writePixel r.pos r.pixel else d.store) q
    = _
  split
  · exact Memory.readPixel_writePixel_other d.store hm r.pos q r.pixel hq
  · rfl

/-! ## IDLE_TIMEOUT (R128) -/

theorem mayExpire_iff (d : Device) (n : PortNum) : d.mayExpire n = true ↔
    ∃ i, (d.port n).interval = some i ∧ i.setting ≠ 0 ∧ i.start + i.setting.toNat ≤ d.timeBase := by
  rw [Device.mayExpire]
  cases (d.port n).interval with
  | none => simp
  | some i => simp

/-- Settles O42: the expiry is an early end, with or without the grant first. -/
theorem idleTimeoutTaken : Obligations.IdleTimeoutTaken := by
  rintro s n p rfl
  refine ⟨fun hnot => ?_, fun i ended hi hset htime hended => ?_⟩
  · have hno : ¬ s.dev.mayExpire n = true := by
      rw [mayExpire_iff]
      rintro ⟨i, hi, hset, htime⟩
      rcases hnot with hnone | ⟨j, hj, hj'⟩
      · rw [hnone] at hi; exact nomatch hi
      · cases hi.symm.trans hj
        exact hj'.elim hset fun hlate => absurd htime (Nat.not_le.2 hlate)
    rw [exec_idleTimeout, if_neg hno]; rfl
  · have hmay := (mayExpire_iff s.dev n).2 ⟨i, hi, hset, htime⟩
    rw [exec_idleTimeout, if_pos hmay, hended]
    refine ⟨fun hplain => ?_, fun r hr hg => ?_⟩
    · rw [endEarly_eq_ended s.dev n .timeout hplain]; rfl
    · rw [endEarly_eq_granted s.dev n .timeout r hr hg]
      refine ⟨fun hfalse => ?_, fun htrue => ?_⟩
      · simp only [Device.withGrant, Device.withEnded, hfalse]; rfl
      · simp only [Device.withGrant, Device.withEnded, htrue]; rfl

/-! ## PORT_RESET and PORT_RESET_RELEASE (R135) -/

theorem exec_portReset (s : State) (n : PortNum) : exec (.portReset n) s = .next (s.withDevice
    (if (s.dev.port n).held then s.dev
      else (if (s.dev.port n).state.inProgress then s.dev.endEarly n .portReset else s.dev).setPort n
        { (if (s.dev.port n).state.inProgress then s.dev.endEarly n .portReset else s.dev).port n with
          held := true, interval := none })) := rfl

theorem exec_portResetRelease (s : State) (n : PortNum) : exec (.portResetRelease n) s = .next (s.withDevice
    (if (s.dev.port n).held then s.dev.setPort n { s.dev.port n with held := false, state := .idle } else s.dev)) := rfl

/-- Settles O43: the port by its level, then by whether a header or burst is in progress. -/
theorem portResets : Obligations.PortResets := by
  rintro s n p rfl
  refine ⟨fun hheld => ?held, fun hfree hidle => ?calm, fun hfree hbusy ended hended => ?busy, fun hfree => ?high,
    fun hheld => ?rising⟩
  case held => rw [exec_portReset, if_pos hheld]; rfl
  case calm =>
    rw [exec_portReset, hfree, (inProgress_false_iff _).2 hidle]; rfl
  case busy =>
    rw [exec_portReset, hfree, (inProgress_iff _).2 hbusy, hended]
    simp only [Bool.false_eq_true, if_false, if_true]
    refine ⟨fun hplain => ?_, fun r hr hg => ?_⟩
    · rw [endEarly_eq_ended s.dev n .portReset hplain, withEnded_setPort, withEnded_port_self]; rfl
    · rw [endEarly_eq_granted s.dev n .portReset r hr hg, withGrant_setPort, withEnded_setPort, withGrant_port,
        withEnded_port_self]
      rfl
  case high => rw [exec_portResetRelease, hfree]; rfl
  case rising => rw [exec_portResetRelease, if_pos hheld]; rfl

/-! ## Abandonment (R134) -/

theorem abandonPort_calm (d : Device) (n : PortNum) (h : (d.port n).state.inProgress = false) :
    d.abandonPort n = d.setPort n { d.port n with binding := none } := by
  simp [Device.abandonPort, h]

theorem abandonPort_plain (d : Device) (n : PortNum) (h : (d.port n).state.inProgress = true)
    (hg : (d.port n).writeRequest = none ∨ d.grants (.rotating (.port n)) = false) :
    d.abandonPort n = d.withEnded n { (d.port n).ended .abandoned with binding := none } := by
  simp only [Device.abandonPort, h, if_true]
  rw [endEarly_eq_ended d n _ hg, withEnded_setPort, withEnded_port_self]

theorem abandonPort_granted (d : Device) (n : PortNum) (r : WriteRequest) (h : (d.port n).state.inProgress = true)
    (hr : (d.port n).writeRequest = some r) (hg : d.grants (.rotating (.port n)) = true) :
    d.abandonPort n = (d.withEnded n { (d.port n).ended .abandoned with binding := none }).withGrant n r := by
  simp only [Device.abandonPort, h, if_true]
  rw [endEarly_eq_granted d n _ r hr hg, withGrant_setPort, withEnded_setPort, withGrant_port, withEnded_port_self]

/-- PORTn of an abandoned port (R130, R134). -/
theorem abandonPort_events (d : Device) (n : PortNum) : (d.abandonPort n).events =
    if (d.port n).state.inProgress then { d.events with latched := d.events.latched ||| bitsAt 1 (6 + n.val) }
    else d.events := by
  cases h : (d.port n).state.inProgress with
  | false => rw [abandonPort_calm d n h]; rfl
  | true =>
    rcases grant_cases d n with hplain | ⟨r, hr, hg⟩
    · rw [abandonPort_plain d n h hplain]; rfl
    · rw [abandonPort_granted d n r h hr hg]; rfl

/-- Without a write that may be granted first, abandonment leaves the frame store and the arbiter. -/
theorem abandonPort_store (d : Device) (n : PortNum)
    (h : (d.port n).writeRequest = none ∨ d.grants (.rotating (.port n)) = false
      ∨ (d.port n).state.inProgress = false) :
    (d.abandonPort n).store = d.store ∧ (d.abandonPort n).rotation = d.rotation
      ∧ (d.abandonPort n).freeIndex = d.freeIndex := by
  cases hp : (d.port n).state.inProgress with
  | false => rw [abandonPort_calm d n hp]; exact ⟨rfl, rfl, rfl⟩
  | true =>
    rw [abandonPort_plain d n hp (by simpa [hp] using h)]
    exact ⟨rfl, rfl, rfl⟩

theorem abandonPort_readPixel (d : Device) (n : PortNum) (hm : Memory.wf d.store) (q : PixelPos)
    (hq : ∀ r, (d.port n).writeRequest = some r → q ≠ r.pos) :
    (d.abandonPort n).store.readPixel q = d.store.readPixel q := by
  cases h : (d.port n).state.inProgress with
  | false => rw [abandonPort_calm d n h]; rfl
  | true =>
    rcases grant_cases d n with hplain | ⟨r, hr, hg⟩
    · rw [abandonPort_plain d n h hplain]; rfl
    · rw [abandonPort_granted d n r h hr hg]
      exact withGrant_readPixel (d.withEnded n _) n r hm q (hq r hr)

/-! ## BIND, UNBIND and PORT_CONFIG (R132, R133, R136) -/

theorem boundPort_eq_none_iff (d : Device) (h : Handle) :
    d.boundPort h = none ↔ ∀ n, (d.port n).binding ≠ some h := by
  refine ⟨fun hb n => boundPort_none hb n, fun hn => ?_⟩
  cases hb : d.boundPort h with
  | none => rfl
  | some n => exact absurd (boundPort_some hb) (hn n)

/-- At most one port is bound to a surface (R131). -/
theorem boundPort_eq_some_iff (d : Device) (h : Handle) (hlaw : d.bindingLaw) (n : PortNum) :
    d.boundPort h = some n ↔ (d.port n).binding = some h :=
  ⟨boundPort_some, fun hn => boundPort_of d h n hn fun m hm => hlaw.1 m n h hm hn⟩

theorem bindAtHead_refused (d : Device) (pw hw : Word) (st : Status) (h : d.handleRefusal (handleOf hw) = some st) :
    bindAtHead [pw, hw] d = (d, refusal st) := by
  simp [bindAtHead, h]

theorem bindAtHead_badParam (d : Device) (pw hw : Word) (h : d.handleRefusal (handleOf hw) = none)
    (hpw : 3 < pw.toNat) : bindAtHead [pw, hw] d = (d, refusal .badParam) := by
  simp [bindAtHead, h, decodePort_none pw hpw]

theorem bindAtHead_busy (d : Device) (pw hw : Word) (n : PortNum) (h : d.handleRefusal (handleOf hw) = none)
    (hpw : pw.toNat = n.val)
    (hbusy : (d.port n).state.inProgress = true ∨ ∃ m, m ≠ n ∧ d.boundPort (handleOf hw) = some m) :
    bindAtHead [pw, hw] d = (d, refusal .busy) := by
  simp only [bindAtHead, h, decodePort_some pw n hpw]
  rcases hbusy with hstate | ⟨m, hm, hbound⟩
  · exact if_pos hstate
  · split
    · rfl
    · exact if_pos (by simp [hbound, hm])

theorem bindAtHead_ok (d : Device) (pw hw : Word) (n : PortNum) (h : d.handleRefusal (handleOf hw) = none)
    (hpw : pw.toNat = n.val) (hidle : (d.port n).state.inProgress = false)
    (hbound : d.boundPort (handleOf hw) = none ∨ d.boundPort (handleOf hw) = some n) :
    bindAtHead [pw, hw] d = (d.setPort n { d.port n with binding := some (handleOf hw) }, okReply []) := by
  have hfree : ¬ (d.boundPort (handleOf hw)).any (fun m => m != n) = true := by
    rcases hbound with hbound | hbound <;> simp [hbound]
  simp only [bindAtHead, h, decodePort_some pw n hpw, hidle]
  exact if_neg hfree

theorem unbindAtHead_badParam (d : Device) (pw : Word) (hpw : 3 < pw.toNat) :
    unbindAtHead [pw] d = (d, refusal .badParam) := by
  simp [unbindAtHead, decodePort_none pw hpw]

theorem unbindAtHead_unbound (d : Device) (pw : Word) (n : PortNum) (hpw : pw.toNat = n.val)
    (hb : (d.port n).binding = none) : unbindAtHead [pw] d = (d, okReply []) := by
  simp [unbindAtHead, decodePort_some pw n hpw, hb]

theorem unbindAtHead_bound (d : Device) (pw : Word) (n : PortNum) (hpw : pw.toNat = n.val)
    (hb : (d.port n).binding ≠ none) : unbindAtHead [pw] d = (d.abandonPort n, okReply []) := by
  simp [unbindAtHead, decodePort_some pw n hpw, Option.isSome_iff_ne_none.2 hb]

theorem portConfigAtHead_badParam (d : Device) (pw setting : Word) (hpw : 3 < pw.toNat) :
    portConfigAtHead [pw, setting] d = (d, refusal .badParam) := by
  simp [portConfigAtHead, decodePort_none pw hpw]

theorem portConfigAtHead_ok (d : Device) (pw setting : Word) (n : PortNum) (hpw : pw.toNat = n.val) :
    portConfigAtHead [pw, setting] d = (d.setPort n { d.port n with timeoutSetting := setting }, okReply []) := by
  simp [portConfigAtHead, decodePort_some pw n hpw]

/-- Settles O35: the commands by their checks, UNBIND then by what it abandons. -/
theorem bindingsChange : Obligations.BindingsChange := by
  refine ⟨fun s low pw hw hs hl => ?bind, fun s low pw setting hs => ⟨fun hpw => ?outOfRange, fun n hn => ?inRange⟩,
    fun d h => ⟨boundPort_eq_none_iff d h, boundPort_eq_some_iff d h⟩⟩
  case bind =>
    have hexec {e r} (he : bindAtHead [pw, hw] s.dev = (e, r)) :=
      exec_atHead .bind bindAtHead low [pw, hw] s hs hl rfl he
    refine ⟨fun st h => hexec (bindAtHead_refused s.dev pw hw st h),
      fun h hpw => hexec (bindAtHead_badParam s.dev pw hw h hpw), fun h n hn =>
        ⟨fun hbusy => hexec (bindAtHead_busy s.dev pw hw n h hn ?_), fun hidle hbound =>
          hexec (bindAtHead_ok s.dev pw hw n h hn ((inProgress_false_iff _).2 hidle) hbound)⟩⟩
    rw [inProgress_iff, or_assoc, or_assoc]
    exact hbusy
  case outOfRange =>
    exact ⟨fun hl => exec_atHead .unbind unbindAtHead low [pw] s hs hl rfl (unbindAtHead_badParam s.dev pw hpw),
      fun hl => exec_atHead .portConfig portConfigAtHead low [pw, setting] s hs hl rfl
        (portConfigAtHead_badParam s.dev pw setting hpw)⟩
  case inRange =>
    refine ⟨fun hl => ?unbind, fun hl => exec_atHead .portConfig portConfigAtHead low [pw, setting] s hs hl rfl
      (portConfigAtHead_ok s.dev pw setting n hn)⟩
    have hexec {e r} (he : unbindAtHead [pw] s.dev = (e, r)) :=
      exec_atHead .unbind unbindAtHead low [pw] s hs hl rfl he
    refine ⟨fun hb => hexec (unbindAtHead_unbound s.dev pw n hn hb), fun hb hidle => ?calm,
      fun hb hbusy ended hended => ?busy⟩
    case calm =>
      have hleft := unbindAtHead_bound s.dev pw n hn hb
      rw [abandonPort_calm s.dev n ((inProgress_false_iff _).2 hidle)] at hleft
      exact hexec hleft
    case busy =>
      have hleft := unbindAtHead_bound s.dev pw n hn hb
      have hp := (inProgress_iff _).2 hbusy
      subst hended
      refine ⟨fun hplain => ?_, fun r hr hg => ?_⟩
      · rw [abandonPort_plain s.dev n hp hplain] at hleft
        exact hexec hleft
      · rw [abandonPort_granted s.dev n r hp hr hg] at hleft
        exact hexec hleft

end Sys2Proof.Machine
end

section
/-! What both forms of CLOSE withdraw (R14, R134, R152): the port of the surface, then its jobs, then its flip state. -/

namespace Sys2Proof.Machine

/-- The port's part of the withdrawals (R134): the port bound to the surface, if there is one, is abandoned. -/
def Device.unbindSurface (d : Device) (h : Handle) : Device :=
  match d.boundPort h with
  | some n => d.abandonPort n
  | none => d

theorem unbindSurface_bound (d : Device) (h : Handle) (n : PortNum) (hlaw : d.bindingLaw)
    (hn : (d.port n).binding = some h) : d.unbindSurface h = d.abandonPort n := by
  rw [Device.unbindSurface, (boundPort_eq_some_iff d h hlaw n).2 hn]

theorem unbindSurface_unbound (d : Device) (h : Handle) (hn : ∀ n, (d.port n).binding ≠ some h) :
    d.unbindSurface h = d := by
  rw [Device.unbindSurface, (boundPort_eq_none_iff d h).2 hn]

/-- A surface is bound to one port, or to none (R131). -/
theorem bound_cases (d : Device) (h : Handle) :
    (∃ n, (d.port n).binding = some h) ∨ ∀ n, (d.port n).binding ≠ some h := by
  rw [← not_exists]
  exact em _

theorem unbindSurface_frame (d : Device) (h : Handle) : ∃ store rotation freeIndex ports events, d.unbindSurface h
    = { d with store := store, rotation := rotation, freeIndex := freeIndex, ports := ports, events := events } := by
  rw [Device.unbindSurface]
  cases d.boundPort h with
  | none => exact ⟨_, _, _, _, _, rfl⟩
  | some n =>
    obtain ⟨store, rotation, freeIndex, ports, events, hframe, -⟩ := abandonPort_frame d n
    exact ⟨store, rotation, freeIndex, ports, events, hframe⟩

/-- The jobs' part changes the block engine alone. -/
theorem abortJobs_frame (d : Device) (h : Handle) : ∃ engine, d.abortJobs h = { d with engine := engine } := by
  obtain ⟨engine, hengine⟩ := startJob_frame { d with
    engine := { d.engine with
      jobs := d.engine.jobs.map (Job.abortFor h)
      request := if d.engine.jobs.any fun j => j.isRunning && j.handle == h then none else d.engine.request } }
  exact ⟨engine, by rw [Device.abortJobs, hengine]⟩

/-- A job that CLOSE aborts (R152). -/
theorem abortFor_eq (h : Handle) : Job.abortFor h = fun j =>
    if j.handle = h ∧ (j.state = .queued ∨ j.state = .running) then { j with state := .aborted } else j := by
  funext j
  simp only [Job.abortFor, Job.isQueued, Job.isRunning, beq_iff_eq]

/-- The jobs' part by the block engine and the surfaces alone. -/
theorem abortJobs_engine (d e : Device) (h : Handle) (hengine : e.engine = d.engine)
    (hsurface : ∀ i, e.surface i = d.surface i) : (e.abortJobs h).engine
      = (Device.startJob
        { d with
          engine := { d.engine with
            jobs := d.engine.jobs.map (fun j =>
              if j.handle = h ∧ (j.state = .queued ∨ j.state = .running) then { j with state := .aborted } else j)
            request :=
              if d.engine.jobs.any (fun j => j.state == .running && j.handle == h) then none
              else d.engine.request } }).engine := by
  rw [← abortFor_eq, Device.abortJobs]
  refine startJob_engine _ _ ?_ fun i => ?_
  · rw [hengine]; rfl
  · exact congrArg Surface.pixelAt (hsurface i)

/-- The withdrawals, one part after another. -/
theorem closeWithdraw_eq (d : Device) (h : Handle) : d.closeWithdraw h
    = ((d.unbindSurface h).abortJobs h).setSurface h.slot
        { ((d.unbindSurface h).abortJobs h).surface h.slot with flip := .none } := rfl

/-- What the jobs' part and the flip state leave: everything but the block engine and the surface. -/
theorem closeWithdraw_frame (d : Device) (h : Handle) : ∃ engine, d.closeWithdraw h
    = ({ d.unbindSurface h with engine := engine } : Device).setSurface h.slot
        { d.surface h.slot with flip := .none } := by
  obtain ⟨engine, hengine⟩ := abortJobs_frame (d.unbindSurface h) h
  obtain ⟨store, rotation, freeIndex, ports, events, hframe⟩ := unbindSurface_frame d h
  refine ⟨engine, ?_⟩
  rw [closeWithdraw_eq, hengine]
  congr 2
  rw [hframe]
  rfl

/-- The port bound to the surface after the withdrawals, and its PORTn (R130, R134). -/
theorem unbindSurface_port (d : Device) (h : Handle) (n : PortNum) (hlaw : d.bindingLaw)
    (hn : (d.port n).binding = some h) :
    ((d.port n).state.inProgress = false →
      (d.unbindSurface h).port n = { d.port n with binding := none } ∧ (d.unbindSurface h).events = d.events)
    ∧ ((d.port n).state.inProgress = true →
      (d.unbindSurface h).port n = { (d.port n).ended .abandoned with binding := none }
      ∧ (d.unbindSurface h).events
        = { d.events with latched := d.events.latched ||| bitsAt 1 (6 + n.val) }) := by
  rw [unbindSurface_bound d h n hlaw hn, abandonPort_port, abandonPort_events]
  refine ⟨fun hp => ?_, fun hp => ?_⟩
  · simp [hp]
  · simp [hp, Port.ended]

theorem unbindSurface_other (d : Device) (h : Handle) (n : PortNum) (hlaw : d.bindingLaw)
    (hn : (d.port n).binding ≠ some h) : (d.unbindSurface h).port n = d.port n := by
  rcases bound_cases d h with ⟨m, hm⟩ | hnone
  · rw [unbindSurface_bound d h m hlaw hm, abandonPort_other d m n fun hmn => hn (hmn ▸ hm)]
  · rw [unbindSurface_unbound d h hnone]

/-- Without a write that may be granted first, the withdrawals leave the frame store and the arbiter. -/
theorem unbindSurface_store (d : Device) (h : Handle) (hlaw : d.bindingLaw)
    (hno : ∀ n, (d.port n).binding = some h → (d.port n).writeRequest = none
      ∨ d.grants (.rotating (.port n)) = false ∨ (d.port n).state.inProgress = false) :
    (d.unbindSurface h).store = d.store ∧ (d.unbindSurface h).rotation = d.rotation
      ∧ (d.unbindSurface h).freeIndex = d.freeIndex := by
  rcases bound_cases d h with ⟨n, hn⟩ | hnone
  · rw [unbindSurface_bound d h n hlaw hn]
    exact abandonPort_store d n (hno n hn)
  · rw [unbindSurface_unbound d h hnone]
    exact ⟨rfl, rfl, rfl⟩

/-- With one, the free value decides whether it is made (R35). -/
theorem unbindSurface_granted (d : Device) (h : Handle) (n : PortNum) (r : WriteRequest) (hlaw : d.bindingLaw)
    (hn : (d.port n).binding = some h) (hp : (d.port n).state.inProgress = true)
    (hr : (d.port n).writeRequest = some r) (hg : d.grants (.rotating (.port n)) = true) :
    (d.unbindSurface h).freeIndex = d.freeIndex + 1
    ∧ (d.unbindSurface h).store
      = (if Config.grantTakenFirst d.freeIndex then d.store.writePixel r.pos r.pixel else d.store)
    ∧ (d.unbindSurface h).rotation = if Config.grantTakenFirst d.freeIndex then .port n else d.rotation := by
  rw [unbindSurface_bound d h n hlaw hn, abandonPort_granted d n r hp hr hg]
  exact ⟨rfl, rfl, rfl⟩

theorem unbindSurface_readPixel (d : Device) (h : Handle) (hlaw : d.bindingLaw) (hm : Memory.wf d.store) (q : PixelPos)
    (hq : ∀ n r, (d.port n).binding = some h → (d.port n).writeRequest = some r → q ≠ r.pos) :
    (d.unbindSurface h).store.readPixel q = d.store.readPixel q := by
  rcases bound_cases d h with ⟨n, hn⟩ | hnone
  · rw [unbindSurface_bound d h n hlaw hn]
    exact abandonPort_readPixel d n hm q fun r hr => hq n r hn hr
  · rw [unbindSurface_unbound d h hnone]

/-- The block engine after the withdrawals. -/
theorem closeWithdraw_engine (d : Device) (h : Handle) :
    (d.closeWithdraw h).engine = ((d.unbindSurface h).abortJobs h).engine := rfl

/-- Settles O14: the port's part by the binding of the surface, the jobs' part by the block engine, and the rest by the
frame of each. -/
theorem closeWithdraws : Obligations.CloseWithdraws := by
  rintro d e h hlaw rfl
  obtain ⟨engine, hclose⟩ := closeWithdraw_frame (d.dropFromPending h) h
  obtain ⟨store, rotation, freeIndex, ports, events, hframe⟩ := unbindSurface_frame (d.dropFromPending h) h
  have hengine := closeWithdraw_engine (d.dropFromPending h) h
  rw [abortJobs_engine d _ h (by rw [hframe]; rfl) (fun i => by rw [hframe]; rfl)] at hengine
  have hport : ∀ n, ((d.dropFromPending h).closeWithdraw h).port n = ((d.dropFromPending h).unbindSurface h).port n := by
    rw [hclose]; exact fun _ => rfl
  have hevents : ((d.dropFromPending h).closeWithdraw h).events = ((d.dropFromPending h).unbindSurface h).events := by
    rw [hclose]; rfl
  refine ⟨by rw [hclose, hframe]; rfl, fun i => ?surface, fun n hn => ?other, fun hnone => ?noPort,
    fun n hn => ⟨fun hidle => ?calm, fun hbusy => ?busy⟩, hengine, fun hno => ?store, fun n r hn hbusy hr hg => ?granted,
    fun hm q hq => ?readPixel, by rw [hclose, hframe]; rfl, by rw [hclose, hframe]; rfl, by rw [hclose, hframe]; rfl,
    by rw [hclose, hframe]; rfl, by rw [hclose, hframe]; rfl, by rw [hclose, hframe]; rfl,
    by rw [hclose, hframe]; rfl⟩
  case surface =>
    rw [hclose, Device.setSurface_surface, hframe]
    by_cases hi : h.slot = i
    · subst hi; simp only [if_true]; rfl
    · rw [if_neg hi, if_neg fun hx => hi hx.symm]; rfl
  case other => rw [hport]; exact unbindSurface_other _ h n hlaw hn
  case noPort => rw [hevents, unbindSurface_unbound (d.dropFromPending h) h hnone]; rfl
  case calm =>
    rw [hport, hevents]
    exact (unbindSurface_port (d.dropFromPending h) h n hlaw hn).1 ((inProgress_false_iff _).2 hidle)
  case busy =>
    rw [hport, hevents]
    exact (unbindSurface_port (d.dropFromPending h) h n hlaw hn).2 ((inProgress_iff _).2 hbusy)
  case store =>
    rw [hclose]
    exact unbindSurface_store (d.dropFromPending h) h hlaw fun n hn =>
      (hno n hn).imp_right (Or.imp_right (inProgress_false_iff _).2)
  case granted =>
    have hgranted := unbindSurface_granted (d.dropFromPending h) h n r hlaw hn ((inProgress_iff _).2 hbusy) hr hg
    rw [hclose]
    exact hgranted
  case readPixel =>
    rw [hclose]
    exact unbindSurface_readPixel (d.dropFromPending h) h hlaw hm q hq

end Sys2Proof.Machine
end

section
/-! The words of a stream port (spec/07): headers and their checks, pixel words, the orientation mapping, writability and
the examination of a stalled port, and the pixel writes as they complete. -/

namespace Sys2Proof.Machine

/-! ## SnREADY (Table 7-2) -/

theorem ready_iff (d : Device) (n : PortNum) : d.ready n = true ↔
    d.pins.resetN = true ∧ (d.port n).held = false
      ∧ ((d.port n).state = .idle ∨ (d.port n).state = .header ∨ (d.port n).state = .discarding
        ∨ (d.port n).state = .pixels ∧ (d.port n).writeRequest = none) := by
  rw [Device.ready, Bool.and_eq_true, Bool.and_eq_true, Bool.not_eq_true', and_assoc]
  cases (d.port n).state <;> simp

theorem exec_markedWord (s : State) (n : PortNum) (w : Word) : exec (.markedWord n w) s
    = .next (s.withDevice (if s.dev.ready n then s.dev.takeMarked n w else s.dev)) := rfl

theorem exec_unmarkedWord (s : State) (n : PortNum) (w : Word) : exec (.unmarkedWord n w) s
    = .next (s.withDevice (if s.dev.ready n then s.dev.takeUnmarked n w else s.dev)) := rfl

/-! ## Port errors that end a header (R117, R119, R130) -/

theorem recordError_eq (d : Device) (n : PortNum) (c : PortError) : d.recordError n c = d.withEnded n
    { d.port n with
      lastError := c
      errorCount := if (d.port n).errorCount < 255 then (d.port n).errorCount + 1 else 255 } := rfl

/-- A header refused, as one update. -/
theorem refuseHeader_eq (d : Device) (n : PortNum) (c : PortError) : d.refuseHeader n c = d.withEnded n
    { d.port n with
      state := .discarding
      header := []
      interval := none
      lastError := c
      errorCount := if (d.port n).errorCount < 255 then (d.port n).errorCount + 1 else 255 } := by
  simp only [Device.refuseHeader, recordError_eq]
  rw [withEnded_setPort, withEnded_port_self]

/-! ## Header words before the fifth (R116, R118) -/

/-- Any number of words but five is a header still being collected. -/
theorem collect_short (d : Device) (n : PortNum) (words : List Word) (h : words.length ≠ 5) :
    d.collect n words = d.setPort n { d.port n with
      state := .header, header := words, interval := some ⟨d.timeBase, (d.port n).timeoutSetting⟩ } := by
  unfold Device.collect
  split
  · exact absurd rfl h
  · rfl

theorem takeMarked_first (d : Device) (n : PortNum) (w : Word)
    (h : (d.port n).state = .idle ∨ (d.port n).state = .discarding) :
    d.takeMarked n w = d.collect n [w] := by
  rcases h with h | h <;> simp [Device.takeMarked, h]

theorem takeMarked_header (d : Device) (n : PortNum) (w : Word) (h : (d.port n).state = .header) :
    d.takeMarked n w = d.collect n ((d.port n).header ++ [w]) := by
  simp [Device.takeMarked, h]

/-- A marked word in PIXELS: the burst ends with SHORT_BURST and a header begins (R129). -/
theorem takeMarked_pixels (d : Device) (n : PortNum) (w : Word) (h : (d.port n).state = .pixels) :
    d.takeMarked n w = d.withEnded n { d.port n with
      state := .header
      header := [w]
      burst := none
      interval := some ⟨d.timeBase, (d.port n).timeoutSetting⟩
      lastError := .shortBurst
      errorCount := if (d.port n).errorCount < 255 then (d.port n).errorCount + 1 else 255 } := by
  simp only [Device.takeMarked, h, recordError_eq]
  rw [withEnded_setPort, withEnded_port_self, collect_short _ _ _ (by simp), withEnded_setPort, withEnded_port_self]
  rfl

/-- Settles O36: the word by the state of the port, and SnREADY by Table 7-2. -/
theorem markedWordCollected : Obligations.MarkedWordCollected := by
  rintro s n w p rfl
  refine ⟨ready_iff s.dev n, fun hready => ?notReady, fun hready hstate => ?first, fun hready hstate h1 h3 => ?more,
    fun hready hstate => ?pixels⟩
  case notReady => rw [exec_markedWord, hready]; rfl
  case first =>
    rw [exec_markedWord, if_pos hready, takeMarked_first _ n w hstate, collect_short _ _ _ (by simp)]; rfl
  case more =>
    have hshort : ((s.dev.port n).header ++ [w]).length ≠ 5 := by
      rw [List.length_append, List.length_singleton]; omega
    rw [exec_markedWord, if_pos hready, takeMarked_header _ n w hstate, collect_short _ _ _ hshort, ← hstate]
    rfl
  case pixels => rw [exec_markedWord, if_pos hready, takeMarked_pixels _ n w hstate]; rfl

/-! ## Writability and the examination of a stalled port (R94, R121) -/

theorem references_eq_false_iff (j : Job) (side : BufferId) :
    j.references side = false ↔ j.target ≠ side ∧ j.kind ≠ .copyForward side := by
  rw [Job.references]
  cases j.kind with
  | fill colour => simp
  | copyForward source => simp

theorem referenced_eq_false_iff (d : Device) (h : Handle) (side : BufferId) : d.referenced h side = false ↔
    ∀ j ∈ d.engine.jobs, j.handle = h → j.target ≠ side ∧ j.kind ≠ .copyForward side := by
  simp only [Device.referenced, List.any_eq_false, Bool.and_eq_true, beq_iff_eq, not_and, Bool.not_eq_true,
    references_eq_false_iff]

theorem other_eq_iff (side front : BufferId) : side = front.other ↔ side ≠ front := by
  cases side <;> cases front <;> decide

theorem writable_iff (d : Device) (h : Handle) (side : BufferId) : d.writable h side = true ↔
    ((d.surface h.slot).buffering = .single ∧ side = .a
      ∨ (d.surface h.slot).buffering = .double ∧ side ≠ (d.surface h.slot).front
        ∧ ((d.surface h.slot).flip = .none ∨ (d.surface h.slot).flip = .shown))
    ∧ ∀ j ∈ d.engine.jobs, j.handle = h → j.target ≠ side ∧ j.kind ≠ .copyForward side := by
  rw [← referenced_eq_false_iff, ← leavesWritable_iff, Device.writable]
  cases (d.surface h.slot).buffering <;> simp [other_eq_iff]

/-- The buffer that ports and jobs write. -/
theorem writeBuffer_eq (r : Surface) :
    r.writeBuffer = if r.buffering = .single then .a else if r.front = .a then .b else .a := by
  cases hb : r.buffering <;> cases hf : r.front <;> simp [Surface.writeBuffer, hb, hf, BufferId.other]

theorem examinePort_not_stalled (d : Device) (n : PortNum) (h : (d.port n).state ≠ .stalled) : d.examinePort n = d := by
  rw [Device.examinePort]
  split
  · exact absurd ‹_› h
  · rfl

/-- A stalled port goes on exactly when its target buffer is writable. -/
theorem examinePort_stalled (d : Device) (n : PortNum) (b : Burst) (h : (d.port n).state = .stalled)
    (hb : (d.port n).burst = some b) : d.examinePort n
      = if d.writable b.target (d.surface b.target.slot).writeBuffer then
          d.setPort n { d.port n with
            state := .pixels
            burst := some { b with buffer := some (d.surface b.target.slot).writeBuffer }
            interval := some ⟨d.timeBase, (d.port n).timeoutSetting⟩ }
        else d := by
  simp only [Device.examinePort, h, hb]
  rfl

theorem examineStall_bound (d : Device) (h : Handle) (n : PortNum) (hn : (d.port n).binding = some h)
    (honly : ∀ m, (d.port m).binding = some h → m = n) : d.examineStall h = d.examinePort n := by
  rw [Device.examineStall, boundPort_of d h n hn honly]

theorem examineStall_unbound (d : Device) (h : Handle) (hn : ∀ n, (d.port n).binding ≠ some h) :
    d.examineStall h = d := by
  rw [Device.examineStall, (boundPort_eq_none_iff d h).2 hn]

/-- Settles O38: writability by its three conditions, and the examination by the state of the bound port. -/
theorem writableBuffers : Obligations.WritableBuffers := by
  refine ⟨?writable, writeBuffer_eq, fun d h => ⟨examineStall_unbound d h, ?examined⟩⟩
  case writable => rintro d h r side rfl; exact writable_iff d h side
  case examined =>
    rintro n p rfl hn honly
    rw [examineStall_bound d h n hn honly]
    refine ⟨examinePort_not_stalled d n, ?_⟩
    rintro b r buffer hstalled hb rfl hbuffer
    rw [← writeBuffer_eq] at hbuffer
    subst hbuffer
    rw [examinePort_stalled d n b hstalled hb]
    exact ⟨fun hno => by rw [hno]; rfl, fun hyes => by rw [if_pos hyes]; rfl⟩

/-! ## The fifth header word (R119 to R121) -/

theorem inRange_iff (h : Header) (b : Buffering) : h.inRange b = true ↔
    h.flags &&& 0xFFFE = 0 ∧ h.u0 ≤ 1023 ∧ h.v0 ≤ 1023 ∧ 1 ≤ h.width ∧ h.width ≤ 1024 ∧ 1 ≤ h.height
      ∧ h.height ≤ 1024 ∧ ¬ (h.flags.getLsbD 0 = true ∧ b = .single) := by
  simp only [Header.inRange, Header.postOnEnd, Bool.and_eq_true, decide_eq_true_eq, beq_iff_eq, Bool.not_eq_true',
    ← Bool.not_eq_true, and_assoc]

theorem inside_iff (h : Header) (r : Surface) :
    h.inside r = true ↔ h.u0 + h.width ≤ r.sourceWidth ∧ h.v0 + h.height ≤ r.sourceHeight := by
  simp only [Header.inside, Bool.and_eq_true, decide_eq_true_eq]

theorem checkHeader_unbound (d : Device) (n : PortNum) (h : Header) (hb : (d.port n).binding = none) :
    d.checkHeader n h = d.refuseHeader n .notBound := by
  simp only [Device.checkHeader, hb]

theorem checkHeader_badHeader (d : Device) (n : PortNum) (h : Header) (target : Handle)
    (hb : (d.port n).binding = some target) (hr : ¬ h.inRange (d.surface target.slot).buffering = true) :
    d.checkHeader n h = d.refuseHeader n .badHeader := by
  simp only [Device.checkHeader, hb, hr]
  rfl

theorem checkHeader_badRect (d : Device) (n : PortNum) (h : Header) (target : Handle)
    (hb : (d.port n).binding = some target) (hr : h.inRange (d.surface target.slot).buffering = true)
    (hi : ¬ h.inside (d.surface target.slot) = true) : d.checkHeader n h = d.refuseHeader n .badRect := by
  simp only [Device.checkHeader, hb, hr, hi]
  rfl

theorem checkHeader_accepted (d : Device) (n : PortNum) (h : Header) (target : Handle)
    (hb : (d.port n).binding = some target) (hr : h.inRange (d.surface target.slot).buffering = true)
    (hi : h.inside (d.surface target.slot) = true) : d.checkHeader n h = d.acceptHeader n h target := by
  simp only [Device.checkHeader, hb, hr, hi, if_true]

/-- An accepted header whose target is not writable stalls. -/
theorem acceptHeader_stalled (d : Device) (n : PortNum) (h : Header) (target : Handle)
    (hw : d.writable target (d.surface target.slot).writeBuffer = false) :
    d.acceptHeader n h target = d.setPort n { d.port n with
      state := .stalled, header := [], interval := none, burst := some (h.burst target) } := by
  rw [Device.acceptHeader, examinePort_stalled _ n (h.burst target) (by rw [Device.setPort_port_self])
    (by rw [Device.setPort_port_self])]
  exact if_neg (by rw [Bool.not_eq_true]; exact hw)

/-- An accepted header whose target is writable goes on to its pixels, the buffer fixed. -/
theorem acceptHeader_pixels (d : Device) (n : PortNum) (h : Header) (target : Handle)
    (hw : d.writable target (d.surface target.slot).writeBuffer = true) :
    d.acceptHeader n h target = d.setPort n { d.port n with
      state := .pixels
      header := []
      interval := some ⟨d.timeBase, (d.port n).timeoutSetting⟩
      burst := some { h.burst target with buffer := some (d.surface target.slot).writeBuffer } } := by
  rw [Device.acceptHeader, examinePort_stalled _ n (h.burst target) (by rw [Device.setPort_port_self])
    (by rw [Device.setPort_port_self]), if_pos, setPort_setPort, Device.setPort_port_self]
  · rfl
  · exact hw

/-- Settles O37: the checks of the complete header in their order, then the examination of its target. -/
theorem headerChecked : Obligations.HeaderChecked := by
  rintro s n p flags u0 v0 width height rfl hready hstate hheader refused taken hrefused htaken
  have hexec : exec (.markedWord n height) s = .next (s.withDevice
      (s.dev.checkHeader n ⟨flags, u0.toNat, v0.toNat, width.toNat, height.toNat⟩)) := by
    rw [exec_markedWord, if_pos hready, takeMarked_header _ n _ hstate, hheader]; rfl
  have hrefuse : ∀ cause, s.dev.refuseHeader n cause = refused cause := fun cause => by
    rw [refuseHeader_eq, hrefused]; rfl
  rw [hexec]
  refine ⟨fun hb => by rw [checkHeader_unbound _ n _ hb, hrefuse], ?_⟩
  rintro target r hb rfl
  refine ⟨fun hbad => ?badHeader, fun h1 h2 h3 h4 h5 h6 h7 h8 => ?inRange⟩
  case badHeader =>
    rw [checkHeader_badHeader _ n _ target hb, hrefuse]
    rw [inRange_iff]
    rintro ⟨g1, g2, g3, g4, g5, g6, g7, g8⟩
    rcases hbad with b | b | b | b | b | b | b | b
    · exact b g1
    · exact absurd b (Nat.not_lt.2 g2)
    · exact absurd b (Nat.not_lt.2 g3)
    · exact absurd b (Nat.not_lt.2 g4)
    · exact absurd b (Nat.not_lt.2 g5)
    · exact absurd b (Nat.not_lt.2 g6)
    · exact absurd b (Nat.not_lt.2 g7)
    · exact g8 b
  case inRange =>
    have hr := (inRange_iff ⟨flags, u0.toNat, v0.toNat, width.toNat, height.toNat⟩
      (s.dev.surface target.slot).buffering).2
      ⟨h1, h2, h3, h4, h5, h6, h7, fun ⟨hpost, hsingle⟩ => buffering_double_ne _ (h8 hpost) hsingle⟩
    refine ⟨fun hout => ?badRect, fun hu hv => ?accepted⟩
    case badRect =>
      rw [checkHeader_badRect _ n _ target hb hr, hrefuse]
      rw [inside_iff]
      rintro ⟨gu, gv⟩
      exact hout.elim (Nat.not_lt.2 gu) (Nat.not_lt.2 gv)
    case accepted =>
      rw [checkHeader_accepted _ n _ target hb hr ((inside_iff _ _).2 ⟨hu, hv⟩)]
      exact ⟨fun hw => by rw [acceptHeader_stalled _ n _ target hw, htaken]; rfl,
        fun hw => by rw [acceptHeader_pixels _ n _ target hw, htaken]; rfl⟩

/-! ## Unmarked words (R117, R124) -/

/-- A pixel word in PIXELS raises its write at the pixel that the orientation gives. -/
theorem raiseWrite_eq (d : Device) (n : PortNum) (w : Word) (b : Burst) (hb : (d.port n).burst = some b) :
    d.raiseWrite n w = d.setPort n { d.port n with
      writeRequest := some ⟨d.burstPos b, w⟩
      interval := some ⟨d.timeBase, (d.port n).timeoutSetting⟩ } := by
  simp only [Device.raiseWrite, hb]
  rfl

theorem burstPos_eq (d : Device) (b : Burst) (buffer : BufferId) (h : b.buffer = some buffer) :
    d.burstPos b = (d.surface b.target.slot).pixelAt buffer
      ((d.surface b.target.slot).mapPixel b.nextSource.1 b.nextSource.2).1
      ((d.surface b.target.slot).mapPixel b.nextSource.1 b.nextSource.2).2 := by
  simp only [Device.burstPos, h, Option.getD_some]

/-- Settles O39: the word by the state of the port. -/
theorem unmarkedWordTaken : Obligations.UnmarkedWordTaken := by
  rintro s n w p rfl
  refine ⟨fun hready => ?notReady, fun hready hstate => ?discarding, fun hready hstate => ?refused,
    fun hready hstate => ?pixels⟩
  case notReady => rw [exec_unmarkedWord, hready]; rfl
  case discarding =>
    have hdrop : s.dev.takeUnmarked n w = s.dev := by simp only [Device.takeUnmarked, hstate]
    rw [exec_unmarkedWord, if_pos hready, hdrop]; rfl
  case refused =>
    have hrefuse : s.dev.takeUnmarked n w
        = s.dev.refuseHeader n (if (s.dev.port n).state = .idle then .overrun else .badHeader) := by
      rcases hstate with hstate | hstate <;> simp [Device.takeUnmarked, hstate]
    rw [exec_unmarkedWord, if_pos hready, hrefuse, refuseHeader_eq]; rfl
  case pixels =>
    rintro b buffer k u v r hb hbuffer rfl rfl rfl rfl
    have hraise : s.dev.takeUnmarked n w = s.dev.raiseWrite n w := by simp only [Device.takeUnmarked, hstate]
    rw [exec_unmarkedWord, if_pos hready, hraise, raiseWrite_eq _ n w b hb, burstPos_eq _ b buffer hbuffer]
    rfl

/-! ## The orientation mapping (R123, Table 7-5) -/

/-- A source pixel lands inside the buffer, and no two on one pixel. -/
theorem mapPixel_inside_inj (r : Surface) (u v u' v' : Nat) (hu : u < r.sourceWidth) (hv : v < r.sourceHeight)
    (hu' : u' < r.sourceWidth) (hv' : v' < r.sourceHeight) :
    (r.mapPixel u v).1 < r.width ∧ (r.mapPixel u v).2 < r.height
      ∧ (r.mapPixel u v = r.mapPixel u' v' → u = u' ∧ v = v') := by
  cases ho : r.orientation <;>
    simp only [Surface.mapPixel, Surface.width, Surface.height, ho, Orientation.swaps, Prod.mk.injEq] <;>
    simp only [if_true, if_false, Bool.false_eq_true] <;> omega

theorem width_height_swapped (r : Surface) (h : r.orientation.swaps = true) :
    r.width = r.sourceHeight ∧ r.height = r.sourceWidth := by
  simp [Surface.width, Surface.height, h]

theorem width_height_plain (r : Surface) (h : r.orientation.swaps = false) :
    r.width = r.sourceWidth ∧ r.height = r.sourceHeight := by
  simp [Surface.width, Surface.height, h]

/-- Settles O40: by the eight orientations. -/
theorem orientationMapping : Obligations.OrientationMapping := by
  refine ⟨fun r u v u' v' hu hv hu' hv' => ?_, fun r => ⟨fun h => ?quarter, fun h => ?half⟩⟩
  · obtain ⟨hx, hy, hinj⟩ := mapPixel_inside_inj r u v u' v' hu hv hu' hv'
    refine ⟨hx, hy, hinj, ?_⟩
    have hback : r.sourceWidth - 1 - (r.sourceWidth - 1 - u) = u := by omega
    refine ⟨?_, ?_, ?_, ?_, ?_, ?_, ?_, ?_⟩ <;> intro ho <;> simp [Surface.mapPixel, ho, hback]
  case quarter =>
    exact width_height_swapped r (by rcases h with h | h | h | h <;> rw [h] <;> rfl)
  case half =>
    exact width_height_plain r (by rcases h with h | h | h | h <;> rw [h] <;> rfl)

/-! ## PIXEL_WRITE_COMPLETE (R124, R125) -/

theorem exec_pixelWriteComplete (s : State) (n : PortNum) : exec (.pixelWriteComplete n) s = .next (s.withDevice
    (if s.dev.grants (.rotating (.port n)) then (s.dev.completeWrite n).settle else s.dev)) := rfl

/-- The device once a port's granted pixel stands, with the port replaced. -/
def Device.pixelWritten (d : Device) (n : PortNum) (r : WriteRequest) (p : Port) : Device :=
  { d with
    store := d.store.writePixel r.pos r.pixel
    rotation := .port n
    ports := d.ports.set n p }

@[simp] theorem pixelWritten_port_self (d : Device) (n : PortNum) (r : WriteRequest) (p : Port) :
    (d.pixelWritten n r p).port n = p := Device.setPort_port_self d n p

theorem pixelWritten_setPort (d : Device) (n : PortNum) (r : WriteRequest) (p q : Port) :
    (d.pixelWritten n r p).setPort n q = d.pixelWritten n r q := by
  simp [Device.pixelWritten, Device.setPort]

/-- A granted write completes, and the last one of its burst ends it. -/
theorem completeWrite_eq (d : Device) (n : PortNum) (r : WriteRequest) (b : Burst)
    (hr : (d.port n).writeRequest = some r) (hb : (d.port n).burst = some b) : d.completeWrite n =
      if b.remaining ≤ 1 then
        (d.pixelWritten n r
          { d.port n with writeRequest := none, burst := some { b with remaining := b.remaining - 1 } }).endBurst n b
      else d.pixelWritten n r
        { d.port n with writeRequest := none, burst := some { b with remaining := b.remaining - 1 } } := by
  simp only [Device.completeWrite, hr, hb]
  rfl

theorem endBurst_plain (d : Device) (n : PortNum) (r : WriteRequest) (p : Port) (b : Burst)
    (hpost : b.postOnEnd = false) : (d.pixelWritten n r p).endBurst n b = d.pixelWritten n r
      { p with state := .idle, burst := none, interval := none, burstsCompleted := p.burstsCompleted + 1 } := by
  simp only [Device.endBurst, hpost, Bool.false_eq_true, if_false, pixelWritten_setPort, pixelWritten_port_self]

theorem endBurst_post (d : Device) (n : PortNum) (r : WriteRequest) (p : Port) (b : Burst)
    (hpost : b.postOnEnd = true) : (d.pixelWritten n r p).endBurst n b
      = ((d.pixelWritten n r { p with burstsCompleted := p.burstsCompleted + 1 }).deliverPost b.target.slot).setPort n
          { ((d.pixelWritten n r
              { p with burstsCompleted := p.burstsCompleted + 1 }).deliverPost b.target.slot).port n with
            state := .idle, burst := none, interval := none } := by
  simp only [Device.endBurst, hpost, if_true, pixelWritten_setPort, pixelWritten_port_self]

/-- A post delivered to a surface that can take one (R97, R98). -/
theorem deliverPost_eq (d : Device) (i : Slot) (h : (d.surface i).flip = .none ∨ (d.surface i).flip = .shown) :
    d.deliverPost i = (d.setSurface i
      { d.surface i with flip := if (d.surface i).flip = .none then .posted else .shownHeld }).offerIdle := by
  rw [Device.deliverPost, posting_eq _ h]

/-- The last pixel of a burst with POST_ON_END, while the scanner runs. -/
theorem deliverPost_pixelWritten (d : Device) (n : PortNum) (w : WriteRequest) (p : Port) (i : Slot)
    (hrun : d.scan.state ≠ .stopped) (h : (d.surface i).flip = .none ∨ (d.surface i).flip = .shown) :
    (d.pixelWritten n w p).deliverPost i = (d.pixelWritten n w p).setSurface i
      { d.surface i with flip := if (d.surface i).flip = .none then .posted else .shownHeld } := by
  rw [deliverPost_not_stopped (d.pixelWritten n w p) i hrun]
  rw [← posting_eq _ h]; rfl

/-- Settles O41: the write, then the end of its burst with or without a post. -/
theorem pixelWriteCompletes : Obligations.PixelWriteCompletes := by
  refine ⟨fun s n => ⟨fun hg => ?notGranted, ?granted⟩, ?posted⟩
  case notGranted => rw [exec_pixelWriteComplete, hg]; rfl
  case granted =>
    rintro p b r written rfl hg hb hr hwritten
    obtain rfl : written = s.dev.pixelWritten n r := funext hwritten
    rw [exec_pixelWriteComplete, if_pos hg, completeWrite_eq s.dev n r b hr hb]
    refine ⟨fun hmore => ?more, fun hlast hpost => ?plain, fun hlast hpost hrun => ?post,
      fun hlast hpost hstop => ?postStopped⟩
    case more => rw [if_neg (by omega)]
    case plain => rw [if_pos hlast, endBurst_plain _ _ _ _ _ hpost]
    case post =>
      rintro t rfl hflip
      rw [if_pos hlast, endBurst_post _ _ _ _ _ hpost, deliverPost_pixelWritten _ _ _ _ _ hrun hflip]
      simp [Device.pixelWritten, Device.setPort, Device.setSurface, Device.port, Device.surface]
    case postStopped => rw [if_pos hlast, endBurst_post _ _ _ _ _ hpost]
  case posted =>
    rintro d i posted hflip rfl
    rw [deliverPost_eq d i hflip]
    exact ⟨fun hrun => offerIdle_not_stopped _ hrun, fun hstop => offerIdle_stopped _ hstop⟩

end Sys2Proof.Machine
end

section
/-! Acknowledgements (spec/06) and the block engine (spec/08): what a job's accesses leave, its admission, and the offer
of its JOB_END record. -/

namespace Sys2Proof.Machine

/-! ## ACK (R103, R104) -/

theorem exec_ack (s : State) (t : Word) (hr : s.dev.pins.resetN = true) :
    exec (.ack t) s = .next (s.withDevice (s.dev.written.acknowledge t).settle) := by
  change Host.Outcome.next (s.withDevice (if s.dev.pins.resetN then _ else _)) = _
  rw [if_pos hr]

theorem noticed_iff (f : FlipState) : f.noticed = true ↔ f = .shown ∨ f = .shownHeld := by
  cases f <;> decide

theorem matchesAck_iff (t : Word) (r : Surface) :
    r.matchesAck t = true ↔ (r.flip = .shown ∨ r.flip = .shownHeld) ∧ r.noticeTag = t.toNat := by
  rw [Surface.matchesAck, Bool.and_eq_true, noticed_iff, beq_iff_eq]

theorem mem_allSlots (i : Slot) : i ∈ allSlots := List.mem_finRange i

theorem any_matchesAck_iff (d : Device) (t : Word) : (allSlots.any fun i => (d.surface i).matchesAck t) = true ↔
    ∃ i, ((d.surface i).flip = .shown ∨ (d.surface i).flip = .shownHeld) ∧ (d.surface i).noticeTag = t.toNat := by
  simp only [List.any_eq_true, mem_allSlots, true_and, matchesAck_iff]

/-- Whether an acknowledgement moves a surface to POSTED. -/
theorem any_acksHeld_iff (d : Device) (t : Word) :
    (allSlots.any fun i => (d.surface i).matchesAck t && (d.surface i).flip == .shownHeld) = true ↔
      ∃ i, (d.surface i).noticeTag = t.toNat ∧ (d.surface i).flip = .shownHeld := by
  simp only [List.any_eq_true, mem_allSlots, true_and, Bool.and_eq_true, matchesAck_iff, beq_iff_eq]
  exact exists_congr fun i => ⟨fun ⟨⟨_, ht⟩, hf⟩ => ⟨ht, hf⟩, fun ⟨ht, hf⟩ => ⟨⟨Or.inr hf, ht⟩, hf⟩⟩

/-- What an acknowledgement leaves of one surface. -/
theorem acked_eq (t : Word) (r : Surface) : r.acked t =
    if r.noticeTag = t.toNat ∧ r.flip = .shown then { r with flip := .none }
    else if r.noticeTag = t.toNat ∧ r.flip = .shownHeld then { r with flip := .posted }
    else r := by
  by_cases ht : r.noticeTag = t.toNat <;> cases hf : r.flip <;>
    simp [Surface.acked, Surface.matchesAck, FlipState.noticed, ht, hf]

/-- An acknowledgement that a surface takes. -/
theorem acknowledge_matched (d : Device) (t : Word)
    (h : ∃ i, ((d.surface i).flip = .shown ∨ (d.surface i).flip = .shownHeld) ∧ (d.surface i).noticeTag = t.toNat) :
    d.acknowledge t =
      if allSlots.any fun i => (d.surface i).matchesAck t && (d.surface i).flip == .shownHeld then
        (d.mapSurfaces fun _ s => s.acked t).offerIdle
      else d.mapSurfaces fun _ s => s.acked t :=
  if_pos ((any_matchesAck_iff d t).2 h)

theorem acknowledge_stray (d : Device) (t : Word)
    (h : ∀ i, ((d.surface i).flip = .shown ∨ (d.surface i).flip = .shownHeld) →
      (d.surface i).noticeTag ≠ t.toNat) : d.acknowledge t = d.latch .strayAck :=
  if_neg fun hany =>
    let ⟨i, hf, ht⟩ := (any_matchesAck_iff d t).1 hany
    h i hf ht

/-- Settles O33: the surfaces one by one, then the idle apply point that a surface moved to POSTED offers. -/
theorem ackReleases : Obligations.AckReleases := by
  intro s t hr hmatch
  refine ⟨(s.dev.written.mapSurfaces fun _ r => r.acked t).surfaces, ?_⟩
  rintro acked rfl
  refine ⟨fun i => ?surfaces, fun hquiet => ?plain, fun hstop hheld => ?idle⟩
  case surfaces =>
    rw [Device.mapSurfaces_surfaces, Fin.getElem_fin, Vector.getElem_ofFn]
    exact acked_eq t (s.dev.surface i)
  case plain =>
    rw [exec_ack s t hr, acknowledge_matched s.dev.written t hmatch]
    split
    · have hheld := (any_acksHeld_iff s.dev t).1 ‹_›
      have hrun : s.dev.scan.state ≠ .stopped :=
        hquiet.resolve_right fun hnone => let ⟨i, hi⟩ := hheld; hnone i hi
      rw [offerIdle_not_stopped (s.dev.written.mapSurfaces fun _ r => r.acked t) hrun]
      rfl
    · rfl
  case idle =>
    rw [exec_ack s t hr, acknowledge_matched s.dev.written t hmatch, if_pos ((any_acksHeld_iff s.dev.written t).2 hheld),
      offerIdle_stopped (s.dev.written.mapSurfaces fun _ r => r.acked t) hstop]
    rfl

/-- Settles O34: an acknowledgement without a match latches STRAY_ACK, and the tags stay in their range. -/
theorem strayAckLatched : Obligations.StrayAckLatched := by
  refine ⟨fun s t hr hwait hstray => ?_, fun d hd i => (hd i).1, reset_tagLaw, fun s t h hstep => (kept_step hstep).tag h⟩
  have hnone : ∀ i, ((s.dev.surface i).flip = .shown ∨ (s.dev.surface i).flip = .shownHeld) →
      (s.dev.surface i).noticeTag ≠ t.toNat := by
    rcases hstray with hnone | ⟨hsmall, hbig⟩
    · exact hnone
    · intro i _ heq
      exact absurd (heq ▸ hsmall i) (Nat.not_le.2 hbig)
  rw [exec_ack s t hr, acknowledge_stray s.dev.written t hnone, settle_headsWait (s.dev.written.latch .strayAck) hwait]
  rfl

/-! ## The running job and the next one (R148) -/

theorem isRunning_eq_false (j : Job) (h : j.state ≠ .running) : j.isRunning = false := by simp [Job.isRunning, h]

theorem isQueued_eq_false (j : Job) (h : j.state ≠ .queued) : j.isQueued = false := by simp [Job.isQueued, h]

theorem isRunning_of (j : Job) (h : j.state = .running) : j.isRunning = true := by simp [Job.isRunning, h]

theorem isQueued_of (j : Job) (h : j.state = .queued) : j.isQueued = true := by simp [Job.isQueued, h]

theorem runningJob_none (d : Device) (h : ∀ k ∈ d.engine.jobs, k.state ≠ .running) : d.runningJob = none := by
  rw [Device.runningJob, List.find?_eq_none]
  exact fun k hk => by rw [isRunning_eq_false k (h k hk)]; exact Bool.false_ne_true

theorem runningJob_ne_none (d : Device) (h : ∃ j ∈ d.engine.jobs, j.state = .running) : d.runningJob ≠ none := by
  obtain ⟨j, hj, hs⟩ := h
  exact fun hnone => List.find?_eq_none.1 hnone j hj (isRunning_of j hs)

theorem runningJob_split (d : Device) (before after : List Job) (j : Job) (hjobs : d.engine.jobs = before ++ j :: after)
    (hb : ∀ k ∈ before, k.state ≠ .running) (hj : j.state = .running) : d.runningJob = some j := by
  rw [Device.runningJob, hjobs]
  exact find_split _ _ _ _ (fun k hk => isRunning_eq_false k (hb k hk)) (isRunning_of j hj)

theorem startJob_running (d : Device) (h : d.runningJob ≠ none) : d.startJob = d := by
  unfold Device.startJob
  split
  · exact absurd ‹_› h
  · rfl

theorem startJob_no_queued (d : Device) (h : ∀ j ∈ d.engine.jobs, j.state ≠ .queued) : d.startJob = d := by
  have hnone : d.engine.jobs.find? Job.isQueued = none :=
    List.find?_eq_none.2 fun k hk => by rw [isQueued_eq_false k (h k hk)]; exact Bool.false_ne_true
  simp [Device.startJob, hnone]

/-- With no job RUNNING, the first QUEUED one starts. -/
theorem startJob_first (d : Device) (before after : List Job) (j : Job) (hjobs : d.engine.jobs = before ++ j :: after)
    (hidle : ∀ k ∈ d.engine.jobs, k.state ≠ .running) (hb : ∀ k ∈ before, k.state ≠ .queued) (hj : j.state = .queued) :
    d.startJob = { d with
      engine := { d.engine with
        jobs := before ++ { j with state := .running } :: after
        request := some (d.jobRequest j) } } := by
  have hb' : ∀ k ∈ before, k.isQueued = false := fun k hk => isQueued_eq_false k (hb k hk)
  have hfind : d.engine.jobs.find? Job.isQueued = some j := by
    rw [hjobs]; exact find_split _ _ _ _ hb' (isQueued_of j hj)
  simp only [Device.startJob, runningJob_none d hidle, hfind]
  rw [hjobs, updateFirst_split _ _ _ _ _ hb' (isQueued_of j hj)]

/-- Settles O45: the start of a job by what the queue holds, and admission as the start after the append. -/
theorem jobAdmitted : Obligations.JobAdmitted := by
  refine ⟨fun d => ⟨?kept, ?started⟩, fun d kind h t r => ⟨fun hrunning => ?busy, fun hidle => ?idle⟩⟩
  case kept =>
    rintro (hrunning | hnone)
    · exact startJob_running d (runningJob_ne_none d hrunning)
    · exact startJob_no_queued d hnone
  case started =>
    rintro before after j x y hjobs hidle hb hj rfl rfl
    rw [startJob_first d before after j hjobs hidle hb hj]
    cases hk : j.kind <;> simp only [Device.jobRequest, hk, Device.jobPos]
  case busy =>
    obtain ⟨j, hj, hs⟩ := hrunning
    exact startJob_running _ (runningJob_ne_none _ ⟨j, List.mem_append_left _ hj, hs⟩)
  case idle =>
    have hnew : ∀ k ∈ d.engine.jobs ++ [⟨d.engine.nextId, kind, h, t, r, 0, .queued⟩], k.state ≠ .running := by
      intro k hk
      rcases List.mem_append.1 hk with hk | hk
      · exact (hidle k hk).1
      · rw [List.mem_singleton.1 hk]; exact (nomatch ·)
    rw [Device.admitJob, startJob_first _ d.engine.jobs [] _ rfl hnew (fun k hk => (hidle k hk).2) rfl]
    cases kind <;> rfl

/-! ## The block engine's accesses (R149, R150) -/

theorem exec_jobReadComplete (s : State) : exec .jobReadComplete s = .next (s.withDevice
    (if s.dev.grants (.rotating .blockEngine) then s.dev.completeJobRead else s.dev)) := rfl

theorem exec_jobWriteComplete (s : State) : exec .jobWriteComplete s = .next (s.withDevice
    (if s.dev.grants (.rotating .blockEngine) && s.dev.engineWrites then s.dev.completeJobWrite.settle
      else s.dev)) := rfl

theorem completeJobRead_write (d : Device) (r : WriteRequest) (h : d.engine.request = some (.write r)) :
    d.completeJobRead = d := by
  simp only [Device.completeJobRead, h]

theorem completeJobRead_read (d : Device) (p : PixelPos) (j : Job) (h : d.engine.request = some (.read p))
    (hj : d.runningJob = some j) : d.completeJobRead = (d.grantTo .blockEngine).setRequest
      (some (.write ⟨d.jobPos j j.target, d.loadPixel p⟩)) := by
  simp only [Device.completeJobRead, h, hj]

/-- Settles O46: the read raises the write of the same position in the target buffer. -/
theorem jobReadCompletes : Obligations.JobReadCompletes := by
  refine fun s => ⟨?nothing, fun p j before after hg hreq hjobs hb hj => ?read⟩
  case nothing =>
    rw [exec_jobReadComplete]
    rintro (hg | ⟨r, hreq⟩)
    · rw [hg]; rfl
    · rw [completeJobRead_write s.dev r hreq, ite_self]; rfl
  case read =>
    rw [exec_jobReadComplete, if_pos hg,
      completeJobRead_read s.dev p j hreq (runningJob_split s.dev before after j hjobs hb hj)]
    rfl

/-- The device once the block engine's granted write stands and the running job has moved on. -/
def Device.jobWritten (d : Device) (r : WriteRequest) (jobs : List Job) (request : Option EngineRequest) : Device :=
  { d with
    store := d.store.writePixel r.pos r.pixel
    rotation := .blockEngine
    engine := { d.engine with jobs := jobs, request := request } }

theorem jobWritten_updateRunning (d : Device) (r : WriteRequest) (before after : List Job) (j : Job)
    (q : Option EngineRequest) (f : Job → Job) (hb : ∀ k ∈ before, k.state ≠ .running) (hj : j.state = .running) :
    (d.jobWritten r (before ++ j :: after) q).updateRunning f = d.jobWritten r (before ++ f j :: after) q := by
  rw [Device.updateRunning]
  exact congrArg (fun jobs => d.jobWritten r jobs q)
    (updateFirst_split _ _ _ _ _ (fun k hk => isRunning_eq_false k (hb k hk)) (isRunning_of j hj))

theorem completeJobWrite_eq (d : Device) (r : WriteRequest) (j : Job) (before after : List Job)
    (hreq : d.engine.request = some (.write r)) (hjobs : d.engine.jobs = before ++ j :: after)
    (hb : ∀ k ∈ before, k.state ≠ .running) (hj : j.state = .running) : d.completeJobWrite =
      if j.progress + 1 = j.rect.area then
        (d.jobWritten r (before ++ { j with progress := j.progress + 1 } :: after) d.engine.request).finishJob j.id
      else d.jobWritten r (before ++ { j with progress := j.progress + 1 } :: after)
        (some (d.jobRequest { j with progress := j.progress + 1 })) := by
  have hwritten : ((d.storePixel r).grantTo .blockEngine).updateRunning (fun k => { k with progress := k.progress + 1 })
      = d.jobWritten r (before ++ { j with progress := j.progress + 1 } :: after) d.engine.request := by
    rw [← jobWritten_updateRunning d r before after j d.engine.request
      (fun k => { k with progress := k.progress + 1 }) hb hj, ← hjobs]
    rfl
  simp only [Device.completeJobWrite, hreq, runningJob_split d before after j hjobs hb hj]
  rw [hwritten, hreq]
  rfl

/-- The end of the running job: FINISHED, no request, the next start, the offer. -/
theorem finishJob_jobWritten (d : Device) (r : WriteRequest) (before after : List Job) (j : Job)
    (q : Option EngineRequest) (hb : ∀ k ∈ before, k.state ≠ .running) (hj : j.state = .running) (id : Byte) :
    (d.jobWritten r (before ++ j :: after) q).finishJob id
      = (d.jobWritten r (before ++ { j with state := .finished } :: after) none).startJob.offerJobEnd id := by
  rw [Device.finishJob, jobWritten_updateRunning d r before after j q _ hb hj]
  rfl

/-- Settles O47: the write stands, and the job goes on to its next pixel or ends. -/
theorem jobWriteCompletes : Obligations.JobWriteCompletes := by
  refine ⟨fun s => ⟨?nothing, ?more⟩, fun s r j before after hg hreq hjobs hb hj hlast => ?last⟩
  case nothing =>
    rw [exec_jobWriteComplete]
    rintro (hg | ⟨p, hreq⟩)
    · rw [hg]; rfl
    · simp only [Device.engineWrites, hreq, Bool.and_false]; rfl
  case more =>
    rintro r j before after x y hg hreq hjobs hb hj hmore rfl rfl
    have hwrites : s.dev.engineWrites = true := by simp only [Device.engineWrites, hreq]
    rw [exec_jobWriteComplete, hg, hwrites, completeJobWrite_eq s.dev r j before after hreq hjobs hb hj,
      if_neg (show ¬ j.progress + 1 = j.rect.area from hmore)]
    rfl
  case last =>
    have hwrites : s.dev.engineWrites = true := by simp only [Device.engineWrites, hreq]
    rw [exec_jobWriteComplete, hg, hwrites, completeJobWrite_eq s.dev r j before after hreq hjobs hb hj,
      if_pos (show j.progress + 1 = j.rect.area from hlast),
      finishJob_jobWritten s.dev r before after { j with progress := j.progress + 1 } s.dev.engine.request hb hj]
    rfl

/-! ## The JOB_END record (R150, R151) -/

theorem isEnded_of (j : Job) (h : j.state = .finished ∨ j.state = .aborted) : j.isEnded = true := by
  rcases h with h | h <;> simp [Job.isEnded, h]

theorem completionRoom_eq_true (d : Device) (h : d.control.completions.length < 16) : d.completionRoom = true :=
  (completionRoom_iff d).2 h

/-- Settles O48: without room COMPL_WAIT is latched; with room the record is placed, and the job's surface is examined. -/
theorem jobEndOffered : Obligations.JobEndOffered := by
  intro d j before after hjobs hb hended
  have hbefore : ∀ k ∈ before, (k.id == j.id && k.isEnded) = false := fun k hk => by simp [hb k hk]
  have hthis : (j.id == j.id && j.isEnded) = true := by simp [isEnded_of j hended]
  have hfind : (d.engine.jobs.find? fun k => k.id == j.id && k.isEnded) = some j := by
    rw [hjobs]; exact find_split _ _ _ _ hbefore hthis
  refine ⟨fun hfull => ?full, fun hroom => ?room⟩
  case full =>
    have hno : ¬ d.completionRoom = true := fun h => absurd ((completionRoom_iff d).1 h) (Nat.not_lt.2 hfull)
    simp only [Device.offerJobEnd, hfind]
    rw [if_neg hno]
    rfl
  case room =>
    rintro placed rfl
    have hplaced : d.placeJobEnd j = { d with
        engine := { d.engine with jobs := before ++ after }
        control := { d.control with
          completions := d.control.completions
            ++ [.jobEnd j.handle j.id (if j.state = .aborted then .aborted else .done)] } } := by
      have herase : (d.engine.jobs.eraseP fun k => k.id == j.id && k.isEnded) = before ++ after := by
        rw [hjobs, List.eraseP_append_right _ (fun k hk => by rw [hbefore k hk]; exact Bool.false_ne_true),
          List.eraseP_cons_of_pos (p := fun k : Job => k.id == j.id && k.isEnded) hthis]
      rw [Device.placeJobEnd, herase]
      rfl
    have hoffer : d.offerJobEnd j.id
        = (((d.placeJobEnd j).examineStall j.handle).examineRelease j.handle.slot).offerIdle := by
      simp only [Device.offerJobEnd, hfind]
      rw [if_pos (completionRoom_eq_true d hroom)]
    have hscan : (((d.placeJobEnd j).examineStall j.handle).examineRelease j.handle.slot).scan = d.scan := by
      rw [examineRelease_scan, examineStall_scan]; rfl
    rw [← hplaced, hoffer]
    exact ⟨fun hrun => offerIdle_not_stopped _ (by rw [hscan]; exact hrun),
      fun hstop => offerIdle_stopped _ (by rw [hscan]; exact hstop)⟩

end Sys2Proof.Machine
end

section
/-! The arbiter and the frame store (spec/02), and the queues as the controller reads them (spec/09, spec/11). -/

namespace Sys2Proof.Machine

/-! ## The arbiter (R33, R34) -/

/-- The cyclic order, cut behind the client granted last. -/
theorem rotationAfter_split (before : List RotatingClient) (c : RotatingClient) (after : List RotatingClient)
    (h : [RotatingClient.port 0, .port 1, .port 2, .port 3, .blockEngine, .pixelRead] = before ++ c :: after) :
    rotationAfter c = after ++ before ++ [c] := by
  have hlen : before.length < 6 := by
    have := congrArg List.length h
    simp only [List.length_cons, List.length_nil, List.length_append] at this
    omega
  have htail : c :: after = [RotatingClient.port 0, .port 1, .port 2, .port 3, .blockEngine, .pixelRead].drop
      before.length := by rw [h, List.drop_left]
  have hhead : before = [RotatingClient.port 0, .port 1, .port 2, .port 3, .blockEngine, .pixelRead].take
      before.length := by rw [h, List.take_left]
  generalize before.length = k at hlen htail hhead
  subst hhead
  interval_cases k <;> obtain ⟨rfl, rfl⟩ := List.cons.inj htail <;> rfl

theorem grants_scan_iff (d : Device) : d.grants .scan = true ↔ d.scan.reads ≠ [] := by
  rw [Device.grants, Device.nextGrant]
  cases d.scan.reads <;> simp

/-- A rotating client is granted when the scan engine waits for nothing and no client ahead of it in the rotation has a
request. -/
theorem grants_rotating_iff (d : Device) (c : RotatingClient) : d.grants (.rotating c) = true ↔
    d.scan.reads = [] ∧ d.requesting c = true ∧ ∃ before after, rotationAfter d.rotation = before ++ c :: after
      ∧ ∀ e ∈ before, d.requesting e = false := by
  rw [Device.grants, Device.nextGrant, beq_iff_eq]
  cases d.scan.reads with
  | nil => simp [List.find?_eq_some_iff_append]
  | cons r rest => simp

/-- Settles O18: the rotation client by client, and the grant as the first request in the rotation. -/
theorem arbiterGrants : Obligations.ArbiterGrants :=
  ⟨rotationAfter_split, fun d => ⟨fun _ => Option.isSome_iff_ne_none, Option.isSome_iff_ne_none,
    Option.isSome_iff_ne_none, grants_scan_iff d, grants_rotating_iff d⟩⟩

/-! ## Pixels of the frame store (R25, R26) -/

/-- A buffer has as many pixels as its source. -/
theorem width_mul_height (r : Surface) : r.width * r.height = r.sourceWidth * r.sourceHeight := by
  cases h : r.orientation.swaps with
  | true => rw [(width_height_swapped r h).1, (width_height_swapped r h).2, Nat.mul_comm]
  | false => rw [(width_height_plain r h).1, (width_height_plain r h).2]

/-- The index of a pixel of a buffer lies below the number of its pixels. -/
theorem pixelIndex_lt (r : Surface) (x y : Nat) (hx : x < r.width) (hy : y < r.height) :
    y * r.width + x < r.sourceWidth * r.sourceHeight := by
  rw [← width_mul_height, Nat.mul_comm r.width]
  calc y * r.width + x < y * r.width + r.width := by omega
    _ = (y + 1) * r.width := by ring
    _ ≤ r.height * r.width := Nat.mul_le_mul_right _ hy

/-- The slab of that index is in the list of a buffer that holds all its slabs. -/
theorem pixelSlab_lt (r : Surface) (side : BufferId) (x y : Nat)
    (hlen : (r.slabList side).length = slabsFor r.sourceWidth r.sourceHeight) (hx : x < r.width) (hy : y < r.height) :
    (y * r.width + x) / 4096 < (r.slabList side).length := by
  have := pixelIndex_lt r x y hx hy
  rw [hlen, slabsFor]
  simp only [Config.slabPixels]
  omega

theorem pixelAt_slab (r : Surface) (side : BufferId) (x y : Nat)
    (hlen : (r.slabList side).length = slabsFor r.sourceWidth r.sourceHeight) (hx : x < r.width) (hy : y < r.height) :
    (r.slabList side)[(y * r.width + x) / 4096]? = some (r.pixelAt side x y).slab := by
  have hlt := pixelSlab_lt r side x y hlen hx hy
  rw [List.getElem?_eq_getElem hlt]
  exact congrArg some (List.getD_eq_getElem _ _ hlt).symm

/-- Different pixels of a buffer with distinct slabs stand at different positions. -/
theorem pixelAt_inj (r : Surface) (side : BufferId) (hlen : (r.slabList side).length
      = slabsFor r.sourceWidth r.sourceHeight) (hnodup : (r.slabList side).Nodup) (x y x' y' : Nat)
    (hx : x < r.width) (hy : y < r.height) (hx' : x' < r.width) (hy' : y' < r.height)
    (h : r.pixelAt side x' y' = r.pixelAt side x y) : x' = x ∧ y' = y := by
  have hslab : (y' * r.width + x') / 4096 = (y * r.width + x) / 4096 := by
    refine (List.getElem?_inj (pixelSlab_lt r side x' y' hlen hx' hy') hnodup).1 ?_
    rw [pixelAt_slab r side x' y' hlen hx' hy', pixelAt_slab r side x y hlen hx hy, h]
  have hplace : (y' * r.width + x') % 4096 = (y * r.width + x) % 4096 :=
    congrArg (fun p : PixelPos => p.place.val) h
  have hindex : y' * r.width + x' = y * r.width + x := by omega
  have hpos : 0 < r.width := Nat.lt_of_le_of_lt (Nat.zero_le x) hx
  have hdiv := congrArg (· / r.width) hindex
  simp only [Nat.add_comm (_ * r.width), Nat.add_mul_div_right _ _ hpos, Nat.div_eq_of_lt hx, Nat.div_eq_of_lt hx',
    Nat.zero_add] at hdiv
  subst hdiv
  exact ⟨Nat.add_left_cancel hindex, rfl⟩

/-- Settles O19: by the laws of the frame store, and by the row-major index of a pixel. -/
theorem frameStoreHoldsPixels : Obligations.FrameStoreHoldsPixels := by
  refine ⟨fun m p w hm => ?written, fun r side hlen hnodup x y hx hy => ?placed, fun p => ?address,
    fun r => ⟨rfl, rfl⟩⟩
  case written =>
    exact ⟨Memory.wf_writePixel m hm p w, Memory.readPixel_writePixel m hm p w,
      fun q hq => Memory.readPixel_writePixel_other m hm p q w hq,
      fun a h0 h1 => Memory.readByte_writePixel m hm p w a h0 h1⟩
  case placed =>
    exact ⟨pixelAt_slab r side x y hlen hx hy, rfl,
      fun x' y' hx' hy' h => pixelAt_inj r side hlen hnodup x y x' y' hx hy hx' hy' h⟩
  case address => rw [PixelPos.address, Config.slabBytes]

/-! ## Reads of RESP and COMPL (R165, R166, R167) -/

theorem exec_respRead (s : State) (hr : s.dev.pins.resetN = true) : exec .respRead s
    = .next (s.withDevice ((s.dev.setData (some (s.dev.readLocation .resp))).popResponseWord).settle) := by
  change Host.Outcome.next (s.withDevice s.dev.readResp) = _
  rw [Device.readResp, if_pos hr]

theorem exec_complRead (s : State) (hr : s.dev.pins.resetN = true) : exec .complRead s
    = .next (s.withDevice ((s.dev.setData (some (s.dev.readLocation .compl))).popRecordWord).settle) := by
  change Host.Outcome.next (s.withDevice s.dev.readCompl) = _
  rw [Device.readCompl, if_pos hr]

theorem readLocation_resp_nil (d : Device) (hr : d.pins.resetN = true) (h : d.control.responses = []) :
    d.readLocation .resp = 0 := by
  simp only [Device.readLocation, hr, if_true, Device.nextResponseWord, h]

theorem readLocation_resp_cons (d : Device) (hr : d.pins.resetN = true) (r : Response) (rest : List Response)
    (h : d.control.responses = r :: rest) :
    d.readLocation .resp = (responseWords r).getD d.control.responseRead 0 := by
  simp only [Device.readLocation, hr, if_true, Device.nextResponseWord, h]

theorem readLocation_compl_nil (d : Device) (hr : d.pins.resetN = true) (h : d.control.completions = []) :
    d.readLocation .compl = 0 := by
  simp only [Device.readLocation, hr, if_true, Device.nextRecordWord, h]

theorem readLocation_compl_cons (d : Device) (hr : d.pins.resetN = true) (r : CompletionRecord)
    (rest : List CompletionRecord) (h : d.control.completions = r :: rest) :
    d.readLocation .compl = (recordWords r).getD d.control.completionRead 0 := by
  simp only [Device.readLocation, hr, if_true, Device.nextRecordWord, h]

theorem popResponseWord_nil (d : Device) (h : d.control.responses = []) : d.popResponseWord = d := by
  simp only [Device.popResponseWord, h]

theorem popResponseWord_more (d : Device) (r : Response) (rest : List Response) (h : d.control.responses = r :: rest)
    (hmore : d.control.responseRead + 1 < (responseWords r).length) : d.popResponseWord =
      { d with control := { d.control with responseRead := d.control.responseRead + 1 } } := by
  simp only [Device.popResponseWord, h]
  exact if_pos hmore

theorem popResponseWord_last (d : Device) (r : Response) (rest : List Response) (h : d.control.responses = r :: rest)
    (hlast : (responseWords r).length ≤ d.control.responseRead + 1) : d.popResponseWord =
      { d with control := { d.control with responses := rest, responseRead := 0 } } := by
  simp only [Device.popResponseWord, h]
  exact if_neg (Nat.not_lt.2 hlast)

theorem popRecordWord_nil (d : Device) (h : d.control.completions = []) : d.popRecordWord = d := by
  simp only [Device.popRecordWord, h]

theorem recordWords_length (r : CompletionRecord) : (recordWords r).length = 4 := by cases r <;> rfl

theorem popRecordWord_more (d : Device) (r : CompletionRecord) (rest : List CompletionRecord)
    (h : d.control.completions = r :: rest) (hmore : d.control.completionRead < 3) : d.popRecordWord =
      { d with control := { d.control with completionRead := d.control.completionRead + 1 } } := by
  simp only [Device.popRecordWord, h, recordWords_length]
  exact if_pos (Nat.succ_lt_succ hmore)

theorem popRecordWord_last (d : Device) (r : CompletionRecord) (rest : List CompletionRecord)
    (h : d.control.completions = r :: rest) (hlast : 3 ≤ d.control.completionRead) : d.popRecordWord =
      Device.offerRoom { d with control := { d.control with completions := rest, completionRead := 0 } } := by
  simp only [Device.popRecordWord, h, recordWords_length]
  exact if_neg (Nat.not_lt.2 (Nat.succ_le_succ hlast))

/-! ## The words of responses, records and status (Tables 11-6, 11-11, 11-15) -/

/-- A field below every bit of a word adds its value. -/
theorem or_bitsAt_below_toNat (a : Word) (v lo i : Nat) (ha : 2^i ∣ a.toNat) (hv : v * 2^lo < 2^i) (hi : i ≤ 16) :
    (a ||| bitsAt v lo).toNat = a.toNat + v * 2^lo := by
  have hword : v * 2^lo < 65536 := lt_of_lt_of_le hv (Nat.pow_le_pow_right (by omega) hi)
  have hval := bitsAt_toNat v lo hword
  rw [BitVec.or_comm, or_toNat_low_high _ a i (by rw [hval]; exact hv) ha, hval, Nat.add_comm]

theorem statusCode_lt (s : Status) : statusCode s < 16 := by cases s <;> decide

theorem responseWord0_toNat (r : Response) (h : r.results.length ≤ 6) :
    (bitsAt 1 15 ||| bitsAt r.results.length 12 ||| bitsAt (statusCode r.status) 8 ||| bitsAt r.seq.toNat 0).toNat
      = 0x8000 + r.results.length * 0x1000 + statusCode r.status * 0x100 + r.seq.toNat := by
  have hs := statusCode_lt r.status
  have hq := r.seq.isLt
  have h0 : (bitsAt 1 15).toNat = 32768 := by decide
  have h1 := or_bitsAt_below_toNat (bitsAt 1 15) r.results.length 12 15 (by omega) (by omega) (by omega)
  have h2 := or_bitsAt_below_toNat (bitsAt 1 15 ||| bitsAt r.results.length 12) (statusCode r.status) 8 12
    (by omega) (by omega) (by omega)
  rw [or_bitsAt_below_toNat _ r.seq.toNat 0 8 (by omega) (by omega) (by omega), h2, h1, h0]
  omega

/-- A type above a handle word. -/
theorem recordWord0_toNat (type : Nat) (h : Handle) (ht : type < 16) :
    (bitsAt type 12 ||| handleWord h).toNat = type * 0x1000 + h.slot.val * 0x100 + h.generation.toNat := by
  have hslot := h.slot.isLt
  have hgen := h.generation.isLt
  have hw := handleWord_toNat h
  have hval := bitsAt_toNat type 12 (by omega)
  rw [BitVec.or_comm, or_toNat_low_high _ _ 12 (by omega) (by omega), hw, hval]
  omega

/-- A flag in bit 15 above a small number. -/
theorem flag15_toNat (b : Bool) (v : Nat) (hv : v < 256) :
    (flagAt b 15 ||| bitsAt v 0).toNat = (if b then 0x8000 else 0) + v := by
  have hb := flagAt_toNat b 15 (by omega)
  rw [or_bitsAt_below_toNat _ v 0 15 (by rw [hb]; cases b <;> decide) (by omega) (by omega), hb]
  simp

theorem wordOf_toNat (v : Nat) (h : v < 65536) : (wordOf v).toNat = v := by
  rw [wordOf, BitVec.toNat_ofNat, Nat.mod_eq_of_lt h]

theorem recordWords_flip (h : Handle) (tag : Nat) (count frameLow : Word) (idle : Bool) (ht : tag ≤ 63) :
    ∃ first second : Word, recordWords (.flip h tag count frameLow idle) = [first, second, count, frameLow]
      ∧ first.toNat = 0x1000 + h.slot.val * 0x100 + h.generation.toNat
      ∧ second.toNat = (if idle then 0x8000 else 0) + tag :=
  ⟨_, _, rfl, by rw [recordWord0_toNat 1 h (by decide)], flag15_toNat idle tag (by omega)⟩

theorem recordWords_applied (batch : Word) (frame : BitVec 32) (idle : Bool) :
    ∃ first low high : Word, recordWords (.applied batch frame idle) = [first, batch, low, high]
      ∧ first.toNat = 0x2000 + (if idle then 1 else 0) ∧ frame.toNat = high.toNat * 0x10000 + low.toNat := by
  refine ⟨_, _, _, rfl, ?_, ?_⟩
  · cases idle <;> decide
  · have hframe := frame.isLt
    simp only [BitVec.extractLsb'_toNat, Nat.shiftRight_eq_div_pow]
    omega

theorem recordWords_jobEnd (h : Handle) (id : Byte) (outcome : JobOutcome) :
    ∃ first second : Word, recordWords (.jobEnd h id outcome) = [first, second, 0, 0]
      ∧ first.toNat = 0x3000 + h.slot.val * 0x100 + h.generation.toNat
      ∧ second.toNat = (if outcome = .aborted then 0x8000 else 0) + id.toNat := by
  refine ⟨_, _, rfl, by rw [recordWord0_toNat 3 h (by decide)], ?_⟩
  cases outcome
  · exact flag15_toNat false id.toNat id.isLt
  · exact flag15_toNat true id.toNat id.isLt

theorem recordWords_released (h : Handle) (slabs : Nat) (hs : slabs ≤ 256) :
    ∃ first second : Word, recordWords (.released h slabs) = [first, second, 0, 0]
      ∧ first.toNat = 0x4000 + h.slot.val * 0x100 + h.generation.toNat ∧ second.toNat = slabs :=
  ⟨_, _, rfl, by rw [recordWord0_toNat 4 h (by decide)], wordOf_toNat slabs (by omega)⟩

/-! ## The status locations (R158, R169) -/

theorem readLocation_cmd_toNat (d : Device) (hr : d.pins.resetN = true) :
    (d.readLocation .cmd).toNat = 64 - (d.control.commands.map fun q => admissionLength q.word0).sum := by
  have hfree : d.freeWords = 64 - (d.control.commands.map fun q => admissionLength q.word0).sum := rfl
  rw [Device.readLocation, if_pos hr]
  change (wordOf d.freeWords).toNat = _
  rw [wordOf_toNat _ (by omega), hfree]

theorem queueStatus_toNat (d : Device) (h : d.queueLaw) : d.queueStatus.toNat
    = d.control.responses.length + d.control.completions.length * 0x10 + d.engine.jobs.length * 0x200 := by
  obtain ⟨_, hresponses, hcompletions, hjobs, _, _⟩ := h
  simp only [Config.responseCapacity, Config.completionCapacity, Config.jobCapacity] at hresponses hcompletions hjobs
  have h0 := bitsAt_toNat d.control.responses.length 0 (by omega)
  have h1 := or_bitsAt_toNat (bitsAt d.control.responses.length 0) d.control.completions.length 4 (by omega) (by omega)
  rw [Device.queueStatus, or_bitsAt_toNat _ d.engine.jobs.length 9 (by omega) (by omega), h1, h0]
  omega

theorem scanStateCode_lt (s : ScanState) : scanStateCode s < 4 := by cases s <;> decide

theorem stagingCode_lt (s : StagingState) : stagingCode s < 2 := by cases s <;> decide

theorem assemblyCode_lt (a : Assembly) : assemblyCode a < 3 := by cases a <;> simp [assemblyCode]

theorem waitCauseCode_lt (c : WaitCause) : waitCauseCode c < 6 := by cases c <;> decide

theorem deviceStatus_toNat (d : Device) : d.deviceStatus.toNat
    = scanStateCode d.scan.state + stagingCode d.staging.state * 4 + (if d.staging.dirty then 8 else 0)
      + assemblyCode d.control.assembly * 0x10 + waitCauseCode d.waitCause * 0x100 := by
  have hs := scanStateCode_lt d.scan.state
  have hg := stagingCode_lt d.staging.state
  have hd := bool_toNat_lt_two d.staging.dirty
  have ha := assemblyCode_lt d.control.assembly
  have hw := waitCauseCode_lt d.waitCause
  have hdirty : (if d.staging.dirty then 8 else 0) = d.staging.dirty.toNat * 8 := by
    cases d.staging.dirty <;> rfl
  have h0 := bitsAt_toNat (scanStateCode d.scan.state) 0 (by omega)
  have h1 := or_bitsAt_toNat (bitsAt (scanStateCode d.scan.state) 0) (stagingCode d.staging.state) 2 (by omega)
    (by omega)
  have h2 := or_bitsAt_toNat (bitsAt (scanStateCode d.scan.state) 0 ||| bitsAt (stagingCode d.staging.state) 2)
    d.staging.dirty.toNat 3 (by omega) (by omega)
  have h3 := or_bitsAt_toNat (bitsAt (scanStateCode d.scan.state) 0 ||| bitsAt (stagingCode d.staging.state) 2
    ||| bitsAt d.staging.dirty.toNat 3) (assemblyCode d.control.assembly) 4 (by omega) (by omega)
  rw [Device.deviceStatus, flagAt, or_bitsAt_toNat _ _ 8 (by omega) (by omega), h3, h2, h1, h0, hdirty]
  omega

/-! ## The head-waiting cause (R169) -/

theorem waitCause_nil (d : Device) (h : d.control.commands = []) : d.waitCause = .none := by
  simp only [Device.waitCause, h]

theorem waitCause_incomplete (d : Device) (q : QueuedCommand) (rest : List QueuedCommand)
    (h : d.control.commands = q :: rest) (hq : q.params.length + 1 < admissionLength q.word0) :
    d.waitCause = .incomplete := by
  have hno : q.complete = false := by
    rw [← Bool.not_eq_true, complete_iff]; omega
  simp only [Device.waitCause, h, hno]
  rfl

theorem waitCause_complete (d : Device) (q : QueuedCommand) (rest : List QueuedCommand)
    (h : d.control.commands = q :: rest) (hq : admissionLength q.word0 ≤ q.params.length + 1) : d.waitCause =
      if d.control.responses.length < 8 then
        match waitClass q with
        | .staging => if d.staging.state = .armed then .stagingArmed else .none
        | .job places => if d.engine.jobs.length + places ≤ Config.jobCapacity then .none else .jobRoom
        | .unclassed => if d.pixelRead.isSome then .frameStoreRead else .none
      else .responseRoom := by
  have hyes : q.complete = true := (complete_iff q).2 hq
  by_cases hroom : d.control.responses.length < 8
  · have hr := (responseRoom_iff d).2 hroom
    simp only [Device.waitCause, h, hyes, hr, hroom]
    rfl
  · have hr : d.responseRoom = false := by rw [← Bool.not_eq_true, responseRoom_iff]; exact hroom
    simp only [Device.waitCause, h, hyes, hr, hroom]
    rfl

theorem waitCause_by_head (d : Device) (q : QueuedCommand) (rest : List QueuedCommand)
    (h : d.control.commands = q :: rest) :
    (q.params.length + 1 < admissionLength q.word0 → d.waitCause = .incomplete)
    ∧ (admissionLength q.word0 ≤ q.params.length + 1 →
      (8 ≤ d.control.responses.length → d.waitCause = .responseRoom)
      ∧ (d.control.responses.length < 8 →
        (waitClass q = .staging → d.waitCause = if d.staging.state = .armed then .stagingArmed else .none)
        ∧ (∀ places, waitClass q = .job places →
          d.waitCause = if 4 < d.engine.jobs.length + places then .jobRoom else .none)
        ∧ (waitClass q = .unclassed → d.waitCause = if d.pixelRead.isSome then .frameStoreRead else .none))) := by
  refine ⟨waitCause_incomplete d q rest h, fun hq => ⟨fun hfull => ?_, fun hroom => ⟨fun hc => ?_, fun places hc => ?_,
    fun hc => ?_⟩⟩⟩
  · rw [waitCause_complete d q rest h hq, if_neg (Nat.not_lt.2 hfull)]
  all_goals rw [waitCause_complete d q rest h hq, if_pos hroom, hc]
  · simp only [Config.jobCapacity, ← Nat.not_lt, ite_not]

/-! ## The queues -/

/-- Settles O49: the two queues as they are read, the words of their entries, and the status locations. -/
theorem queuesRead : Obligations.QueuesRead := by
  refine ⟨fun s hr => ⟨fun hnil hwait => ?noResponse, ?response⟩, fun s hr => ⟨fun hnil hwait => ?noRecord, ?record⟩,
    fun r h => ⟨_, _, rfl, responseWord0_toNat r h, ?word1⟩, rfl, recordWords_flip, recordWords_applied,
    recordWords_jobEnd, recordWords_released, fun d hr => ?locations, rfl, rfl,
    fun d => ⟨waitCause_nil d, waitCause_by_head d⟩⟩
  case noResponse =>
    rw [exec_respRead s hr, readLocation_resp_nil s.dev hr hnil, popResponseWord_nil (s.dev.setData (some 0)) hnil,
      settle_headsWait (s.dev.setData (some 0)) hwait]
    rfl
  case response =>
    rintro r rest k hcons rfl
    rw [exec_respRead s hr, readLocation_resp_cons s.dev hr r rest hcons]
    refine ⟨fun hmore hwait => ?more, fun hlast => ?last⟩
    case more =>
      rw [popResponseWord_more (s.dev.setData (some _)) r rest hcons hmore, settle_headsWait]
      · rfl
      · exact hwait
    case last =>
      rw [popResponseWord_last (s.dev.setData (some _)) r rest hcons hlast]
      rfl
  case noRecord =>
    rw [exec_complRead s hr, readLocation_compl_nil s.dev hr hnil, popRecordWord_nil (s.dev.setData (some 0)) hnil,
      settle_headsWait (s.dev.setData (some 0)) hwait]
    rfl
  case record =>
    rintro r rest k hcons rfl
    refine ⟨recordWords_length r, ?_⟩
    rw [exec_complRead s hr, readLocation_compl_cons s.dev hr r rest hcons]
    refine ⟨fun hmore hwait => ?moreWords, fun hlast => ?lastWord⟩
    case moreWords =>
      rw [popRecordWord_more (s.dev.setData (some _)) r rest hcons hmore, settle_headsWait]
      · rfl
      · exact hwait
    case lastWord =>
      intro read ended released hread hended hreleased
      have hpop : (s.dev.setData (some ((recordWords r).getD s.dev.control.completionRead 0))).popRecordWord
          = released.offerIdle := by
        rw [popRecordWord_last (s.dev.setData (some _)) r rest hcons hlast, hreleased, hended, hread]
        rfl
      rw [hpop]
      exact ⟨fun hrun => by rw [offerIdle_not_stopped released hrun],
        fun hstop => by rw [offerIdle_stopped released hstop]⟩
  case word1 =>
    have ho := r.opcode.isLt
    exact bitsAt_toNat r.opcode.toNat 8 (by omega)
  case locations =>
    refine ⟨if_pos hr, if_pos hr, readLocation_eventEnable d hr, readLocation_resp_nil d hr,
      readLocation_compl_nil d hr, readLocation_resp_cons d hr, readLocation_compl_cons d hr,
      readLocation_cmd_toNat d hr, fun hlaw => ?queues, fun staging assembly ho ha hi hc hd => ?device⟩
    case queues => rw [Device.readLocation, if_pos hr]; exact queueStatus_toNat d hlaw
    case device =>
      have hstaging : stagingCode d.staging.state = staging := by
        cases h : d.staging.state
        · exact (ho h).symm
        · exact (ha h).symm
      have hassembly : assemblyCode d.control.assembly = assembly := by
        cases h : d.control.assembly with
        | idle => exact (hi h).symm
        | collecting total k => exact (hc total k h).symm
        | dropping total k => exact (hd total k h).symm
      rw [Device.readLocation, if_pos hr, ← hstaging, ← hassembly]
      exact deviceStatus_toNat d

end Sys2Proof.Machine
end

section
/-! Apply points (spec/03, spec/06): the batch apply, flips and releases one at a time, and their order. -/

namespace Sys2Proof.Machine

/-! ## Room in the completion queue (R166) -/

theorem completionRoom_eq_false (d : Device) (h : 16 ≤ d.control.completions.length) : d.completionRoom = false := by
  rw [← Bool.not_eq_true, completionRoom_iff]
  exact Nat.not_lt.2 h

theorem takesBatch_iff (d : Device) :
    d.takesBatch = true ↔ d.staging.state = .armed ∧ d.control.completions.length < 16 := by
  rw [Device.takesBatch, Bool.and_eq_true, beq_iff_eq, completionRoom_iff]
  rfl

/-! ## The batch apply (R50 to R54) -/

theorem offerBatch_open (d : Device) (idle : Bool) (h : d.staging.state = .opened) : d.offerBatch idle = d := by
  simp [Device.offerBatch, Device.takesBatch, h]

theorem offerBatch_no_room (d : Device) (idle : Bool) (h : d.staging.state = .armed)
    (hfull : 16 ≤ d.control.completions.length) : d.offerBatch idle = d.latch .complWait := by
  have hno : ¬ d.takesBatch = true := fun ht => absurd ((takesBatch_iff d).1 ht).2 (Nat.not_lt.2 hfull)
  rw [Device.offerBatch, if_neg hno, if_pos h]

theorem offerBatch_applies (d : Device) (idle : Bool) (h : d.takesBatch = true) :
    d.offerBatch idle = d.applyBatch idle := if_pos h

/-- A surface record after a batch apply, by its state. -/
theorem applied_eq (r : Surface) (order : List Handle) (h : Handle) : r.applied (order.contains h) =
    match r.state with
    | .free => r
    | .releasing => r
    | .closing => { r with state := .releasing }
    | _ => { r with committed := r.pendingLook, state := if h ∈ order then .live else .dormant } := by
  cases hs : r.state <;> simp [Surface.applied, hs]

/-- Settles O25: the batch by the staging state and the room, then the surfaces one by one. -/
theorem batchApplies : Obligations.BatchApplies := by
  refine fun d idle => ⟨offerBatch_open d idle, offerBatch_no_room d idle, fun harmed hroom => ?_⟩
  refine ⟨(d.applyBatch idle).surfaces, ?_, fun i => ?_⟩
  · rw [offerBatch_applies d idle ((takesBatch_iff d).2 ⟨harmed, hroom⟩)]; rfl
  · exact (applyBatch_surface d idle i).trans (applied_eq _ _ _)

/-! ## Flips (R99 to R101) -/

theorem examineFlip_idle (d : Device) (idle : Bool) (i : Slot)
    (h : (d.surface i).flip ≠ .posted ∨ d.jobsOutstanding (d.handleAt i) ≠ 0) : d.examineFlip idle i = d :=
  if_neg fun ⟨hposted, hjobs⟩ => h.elim (· hposted) (· hjobs)

theorem examineFlip_posted (d : Device) (idle : Bool) (i : Slot) (hposted : (d.surface i).flip = .posted)
    (hjobs : d.jobsOutstanding (d.handleAt i) = 0) :
    d.examineFlip idle i = if d.completionRoom then d.flipSlot idle i else d.latch .complWait :=
  if_pos ⟨hposted, hjobs⟩

theorem bufferId_other_eq (side : BufferId) : side.other = if side = .a then .b else .a := by cases side <;> rfl

/-- What a flip leaves. -/
theorem flipSlot_eq (d : Device) (idle : Bool) (i : Slot) : d.flipSlot idle i = Device.examineStall
    { d with
      surfaces := d.surfaces.set i
        { d.surface i with
          front := if (d.surface i).front = .a then .b else .a
          flipCount := (d.surface i).flipCount + 1
          noticeTag := (d.surface i).committed.tag
          flip := .shown }
      control := { d.control with
        completions := d.control.completions
          ++ [.flip (d.handleAt i) (d.surface i).committed.tag ((d.surface i).flipCount + 1)
            (d.scan.frameNumber.extractLsb' 0 16) idle] } }
    (d.handleAt i) := by
  rw [← bufferId_other_eq]
  rfl

/-! ## Releases (R18 to R20) -/

theorem examineRelease_idle (d : Device) (i : Slot)
    (h : (d.surface i).state ≠ .releasing ∨ d.jobsOutstanding (d.handleAt i) ≠ 0) : d.examineRelease i = d :=
  if_neg fun ⟨hreleasing, hjobs⟩ => h.elim (· hreleasing) (· hjobs)

theorem examineRelease_releasing (d : Device) (i : Slot) (hreleasing : (d.surface i).state = .releasing)
    (hjobs : d.jobsOutstanding (d.handleAt i) = 0) :
    d.examineRelease i = if d.completionRoom then d.release i else d.latch .complWait :=
  if_pos ⟨hreleasing, hjobs⟩

/-- Settles O26: each examination by its two conditions and the room for its record. -/
theorem flipAndReleaseTaken : Obligations.FlipAndReleaseTaken := by
  refine ⟨fun d idle i => ⟨examineFlip_idle d idle i, fun hposted hjobs => ⟨fun hfull => ?flipFull, fun hroom => ?flip⟩⟩,
    fun d i => ⟨examineRelease_idle d i, fun hreleasing hjobs => ⟨fun hfull => ?releaseFull, fun hroom => ?release⟩⟩,
    fun g => ⟨rfl, rfl, rfl⟩, fun d i => rfl⟩
  case flipFull =>
    rw [examineFlip_posted d idle i hposted hjobs, completionRoom_eq_false d hfull]
    rfl
  case flip => rw [examineFlip_posted d idle i hposted hjobs, if_pos (completionRoom_eq_true d hroom), flipSlot_eq]
  case releaseFull =>
    rw [examineRelease_releasing d i hreleasing hjobs, completionRoom_eq_false d hfull]
    rfl
  case release =>
    refine ⟨returnSlabs (d.surface i).heldSlabs d.freeSlabs, ?_, fun k => mem_returnSlabs k _ _⟩
    rw [examineRelease_releasing d i hreleasing hjobs, if_pos (completionRoom_eq_true d hroom)]
    rfl

/-! ## The order of an apply point (R55) -/

/-- The slots an apply point moves to RELEASING. -/
def Device.movedSlots (d : Device) : List Slot := if d.takesBatch then d.closingSlots else []

theorem applyPoint_eq (d : Device) (idle : Bool) : d.applyPoint idle =
    allSlots.foldl (fun e i => e.examineFlip idle i) (d.movedSlots.foldl Device.examineRelease (d.offerBatch idle)) :=
  rfl

theorem movedSlots_sorted (d : Device) : d.movedSlots.Pairwise (· < ·) := by
  rw [Device.movedSlots]
  split
  · exact allSlots_sorted.filter _
  · exact List.Pairwise.nil

/-- The batch apply places its record first, if it takes place. -/
theorem offerBatch_completions (d : Device) (idle : Bool) : (d.offerBatch idle).control.completions
    = d.control.completions
      ++ if d.takesBatch then [.applied (d.staging.batch + 1) d.scan.frameNumber idle] else [] := by
  rw [Device.offerBatch]
  split
  · rw [applyBatch_control]
  · rw [List.append_nil]
    split <;> rfl

/-- Settles O27: the fold of an apply point, and the records that its two runs over the slots place. -/
theorem applyPointOrder : Obligations.ApplyPointOrder := by
  refine ⟨rfl, fun d idle => ⟨takesBatch_iff d, fun moved hmoved hnone => ?fold, offerIdle_stopped d,
    offerIdle_not_stopped d, ?records⟩⟩
  case fold =>
    have heq : moved = d.movedSlots := by
      cases ht : d.takesBatch with
      | true => rw [hmoved ht, Device.movedSlots, ht]; rfl
      | false => rw [hnone ht, Device.movedSlots, ht]; rfl
    rw [applyPoint_eq, heq]
  case records =>
    have hrelease := fold_records Device.examineRelease (fun i r => ∃ g n, r = .released ⟨i, g⟩ n) (fun e i =>
      (examineRelease_completions e i).imp_right fun h =>
        ⟨_, ⟨(e.surface i).generation, (e.surface i).heldSlabs.length, rfl⟩, h⟩)
    have hflip := fold_records (fun e i => e.examineFlip idle i)
      (fun i r => ∃ g tag count low, r = .flip ⟨i, g⟩ tag count low idle) (fun e i =>
        (examineFlip_completions e idle i).imp_right fun ⟨g, tag, count, low, h⟩ => ⟨_, ⟨g, tag, count, low, rfl⟩, h⟩)
    obtain ⟨released, hrec, hrsorted, hrall⟩ := hrelease d.movedSlots (movedSlots_sorted d) (d.offerBatch idle)
    obtain ⟨flipped, hfrec, hfsorted, hfall⟩ := hflip allSlots allSlots_sorted
      (d.movedSlots.foldl Device.examineRelease (d.offerBatch idle))
    refine ⟨released, flipped, ?_, hrsorted, hfsorted, fun e he => (hrall e he).2, fun e he => (hfall e he).2⟩
    rw [applyPoint_eq, hfrec, hrec, offerBatch_completions]

end Sys2Proof.Machine
end

section
/-! The scene reset and the device reset (R170, R171): what stands afterwards, block by block, and the one write whose
grant may have been taken first (R35). -/

namespace Sys2Proof.Machine

/-! ## SCENE_RESET (R170) -/

/-- The stream ports' part of a scene reset leaves every block but the ports, the event unit and the frame store. -/
theorem abandonAll_kept (d : Device) : ∃ ports events, d.abandonAll = { d with
      store := (d.grantFirst d.portInProgress).store
      rotation := (d.grantFirst d.portInProgress).rotation
      freeIndex := (d.grantFirst d.portInProgress).freeIndex
      ports := ports
      events := events }
    ∧ events.enabled = d.events.enabled := by
  obtain ⟨ports, events, habandon, henabled⟩ := abandonAll_frame d
  obtain ⟨store, rotation, freeIndex, hgrant⟩ := grantFirst_frame d d.portInProgress
  refine ⟨ports, events, ?_, henabled⟩
  rw [habandon, hgrant]

theorem grantFirst_portInProgress_none (d : Device) (h : ∀ n, (d.port n).writeRequest = none
    ∨ (d.port n).state.inProgress = false ∨ d.grants (.rotating (.port n)) = false) :
    d.grantFirst d.portInProgress = d := by
  refine grantFirst_of_not d _ fun c r hw hr => ?_
  cases c with
  | blockEngine => exact nomatch hw
  | pixelRead => exact nomatch hw
  | port n =>
    change (d.port n).state.inProgress = true at hw
    change (d.port n).writeRequest = some r at hr
    rcases h n with hnone | hstate | hgrants
    · rw [hnone] at hr; exact nomatch hr
    · rw [hstate] at hw; exact nomatch hw
    · exact hgrants

theorem grantFirst_portInProgress_readPixel (d : Device) (hm : Memory.wf d.store) (q : PixelPos)
    (h : ∀ n r, (d.port n).writeRequest = some r → q ≠ r.pos) :
    (d.grantFirst d.portInProgress).store.readPixel q = d.store.readPixel q := by
  refine grantFirst_readPixel d _ hm q fun c r hw hr => ?_
  cases c with
  | blockEngine => exact nomatch hw
  | pixelRead => exact nomatch hw
  | port n => exact h n r hr

/-- Every port after a scene reset. -/
theorem sceneReset_port (d : Device) (n : PortNum) : d.sceneReset.port n = if (d.port n).state.inProgress then
    { (d.port n).ended .abandoned with binding := none } else { d.port n with binding := none } := by
  rw [Device.sceneReset, Device.clearScene_port, abandonAll_port, leavePort_port, if_pos rfl]
  rfl

/-- The device of a scene reset: `clearScene` of the device in which the ports have been abandoned. -/
theorem sceneReset_blocks (d : Device) : (∀ i, d.sceneReset.surface i = Surface.freed (d.surface i).generation)
    ∧ d.sceneReset.staging = { d.staging with
        state := .opened, dirty := false, order := [], background := d.layers.background }
    ∧ d.sceneReset.layers = { d.layers with order := [] }
    ∧ d.sceneReset.control = { d.control with completions := [], completionRead := 0 }
    ∧ d.sceneReset.engine = { d.engine with jobs := [], request := none }
    ∧ d.sceneReset.scan = { d.scan with reads := d.scan.reads.take 1 }
    ∧ d.sceneReset.pins = d.pins ∧ d.sceneReset.pixelRead = d.pixelRead ∧ d.sceneReset.timeBase = d.timeBase
    ∧ d.sceneReset.events.enabled = d.events.enabled := by
  obtain ⟨ports, events, habandon, henabled⟩ := abandonAll_kept d
  rw [Device.sceneReset, habandon]
  exact ⟨Device.clearScene_surface _, rfl, rfl, rfl, rfl, rfl, rfl, rfl, rfl, henabled⟩

/-- The frame store, the pointer and the free values after a scene reset are those of the grant taken first. -/
theorem sceneReset_grant (d : Device) : d.sceneReset.store = (d.grantFirst d.portInProgress).store
    ∧ d.sceneReset.rotation = (d.grantFirst d.portInProgress).rotation
    ∧ d.sceneReset.freeIndex = (d.grantFirst d.portInProgress).freeIndex := by
  obtain ⟨ports, events, habandon, _⟩ := abandonAll_kept d
  rw [Device.sceneReset, habandon]
  exact ⟨rfl, rfl, rfl⟩

theorem sceneReset_latched (d : Device) (k : Nat) : d.sceneReset.events.latched.getLsbD k = true ↔
    d.events.latched.getLsbD k = true ∨ ∃ n : PortNum, k = 6 + n.val ∧ (d.port n).state.inProgress = true := by
  rw [Device.sceneReset, Device.clearScene_events]
  exact abandonAll_latched d k

/-- Settles O52: block by block. -/
theorem sceneResetResult : Obligations.SceneResetResult := by
  intro s low hs hl
  have hexec := exec_atHead .sceneReset sceneResetAtHead low [] s hs hl rfl (e := s.dev.sceneReset) (r := okReply []) rfl
  obtain ⟨hsurfaces, hstaging, hlayers, hcontrol, hengine, hscan, hpins, hreading, htime, henabled⟩ :=
    sceneReset_blocks s.dev
  obtain ⟨hstore, hrotation, hfree⟩ := sceneReset_grant s.dev
  refine ⟨s.dev.sceneReset, hexec, hsurfaces, Device.clearScene_freeSlabs _, hstaging, hlayers, hcontrol, hengine, hscan,
    hpins, hreading, htime, henabled, sceneReset_latched s.dev, fun n => ?ports, fun hquiet => ?quiet,
    fun n r hr hprogress hg => ?granted, fun hm q hq => ?pixels, inProgress_iff⟩
  case ports =>
    rw [sceneReset_port]
    exact ⟨by split <;> rfl, fun hidle => by rw [hidle]; rfl, fun hprogress => by rw [if_pos hprogress]; rfl⟩
  case quiet =>
    rw [grantFirst_portInProgress_none s.dev hquiet] at hstore hrotation hfree
    exact ⟨hstore, hrotation, hfree⟩
  case granted =>
    rw [grantFirst_of s.dev _ (.port n) r hprogress hg hr] at hstore hrotation hfree
    exact ⟨hfree, hstore, hrotation⟩
  case pixels => rw [hstore, grantFirst_portInProgress_readPixel s.dev hm q hq]

/-! ## DEVICE_RESET (R171) -/

theorem exec_deviceReset (s : State) : exec .deviceReset s = .next (s.withDevice
    (if s.dev.pins.resetN then (s.dev.grantFirst fun _ => true).inReset else s.dev)) := rfl

@[simp] theorem inReset_surface (d : Device) (i : Slot) : d.inReset.surface i = Surface.freed 0 :=
  Vector.getElem_replicate i.isLt

@[simp] theorem inReset_port (d : Device) (n : PortNum) : d.inReset.port n = Port.reset (d.port n).held := by
  change (Vector.ofFn fun n : PortNum => Port.reset d.ports[n].held)[n.val] = _
  rw [Vector.getElem_ofFn]
  rfl

theorem inReset_freeSlabs (d : Device) : d.inReset.freeSlabs = allSlabs := by
  simp only [Device.inReset]

theorem grantFirst_all_none (d : Device)
    (hports : ∀ n, (d.port n).writeRequest = none ∨ d.grants (.rotating (.port n)) = false)
    (hengine : ∀ r, d.engine.request = some (.write r) → d.grants (.rotating .blockEngine) = false) :
    d.grantFirst (fun _ => true) = d := by
  refine grantFirst_of_not d _ fun c r _ hr => ?_
  cases c with
  | pixelRead => exact nomatch hr
  | blockEngine => exact hengine r ((waitingWrite_blockEngine d r).1 hr)
  | port n =>
    change (d.port n).writeRequest = some r at hr
    exact (hports n).resolve_left fun hnone => by rw [hnone] at hr; exact nomatch hr

/-- The write that is granted next at a device reset is made first or not, whichever client it is of. -/
theorem grantFirst_all_granted (d : Device) (r : WriteRequest)
    (h : (∃ n, (d.port n).writeRequest = some r ∧ d.grants (.rotating (.port n)) = true)
      ∨ d.engine.request = some (.write r) ∧ d.grants (.rotating .blockEngine) = true) :
    (d.grantFirst fun _ => true).freeIndex = d.freeIndex + 1
    ∧ (d.grantFirst fun _ => true).store
      = if Config.grantTakenFirst d.freeIndex then d.store.writePixel r.pos r.pixel else d.store := by
  rcases h with ⟨n, hr, hg⟩ | ⟨hr, hg⟩
  · rw [grantFirst_of d _ (.port n) r rfl hg hr]
    exact ⟨rfl, rfl⟩
  · rw [grantFirst_of d _ .blockEngine r rfl hg ((waitingWrite_blockEngine d r).2 hr)]
    exact ⟨rfl, rfl⟩

theorem grantFirst_all_readPixel (d : Device) (hm : Memory.wf d.store) (q : PixelPos)
    (hports : ∀ n r, (d.port n).writeRequest = some r → q ≠ r.pos)
    (hengine : ∀ r, d.engine.request = some (.write r) → q ≠ r.pos) :
    (d.grantFirst fun _ => true).store.readPixel q = d.store.readPixel q := by
  refine grantFirst_readPixel d _ hm q fun c r _ hr => ?_
  cases c with
  | pixelRead => exact nomatch hr
  | blockEngine => exact hengine r ((waitingWrite_blockEngine d r).1 hr)
  | port n => exact hports n r hr

/-- Settles O53: every block at its reset values, over the frame store as the grant taken first leaves it. -/
theorem deviceResetResult : Obligations.DeviceResetResult := by
  refine fun s => ⟨fun hr => ?low, rfl, fun hr => ⟨(s.dev.grantFirst fun _ => true).inReset, ?exec, rfl, rfl, rfl,
    inReset_surface _, inReset_freeSlabs _, rfl, rfl, rfl, rfl, fun n => ?ports, rfl, rfl, ?time, rfl, fun n => rfl,
    fun hports hengine => ?quiet, grantFirst_all_granted s.dev, grantFirst_all_readPixel s.dev⟩⟩
  case low => rw [exec_deviceReset, hr]; rfl
  case exec => rw [exec_deviceReset, if_pos hr]
  case ports => rw [inReset_port, grantFirst_port]; rfl
  case time =>
    obtain ⟨_, _, _, hgrant⟩ := grantFirst_frame s.dev fun _ => true
    rw [hgrant]
    rfl
  case quiet =>
    rw [grantFirst_all_none s.dev hports hengine]
    exact ⟨rfl, rfl⟩

end Sys2Proof.Machine
end

section
/-! The scan engine (spec/04, spec/05): the walk through a frame, the composition of panel pixels, the frame boundary and
the levels of the panel output. -/

namespace Sys2Proof.Machine

/-! ## Composition (R69 to R72) -/

/-- The running value with which the composition of the pixel of a position begins. -/
def Device.pixelBackground (d : Device) (pos : ScanPos) : Pixel :=
  if d.scan.setup.activeAt pos then d.layers.background else 0

/-- The reads that the pixel of a position needs. -/
def Device.pixelReads (d : Device) : ScanPos → List ScanRead
  | .leadIn _ _ => []
  | .frame line k => if d.scan.setup.activeAt (.frame line k) then d.panelReads k line else []

theorem compose_eq (d : Device) (pos : ScanPos) : d.compose pos = { d with
    scan := { d.scan with composing := d.pixelBackground pos, reads := d.pixelReads pos } } := by
  cases pos with
  | leadIn line k => rfl
  | frame line k =>
    rw [Device.compose, Device.pixelBackground, Device.pixelReads]
    split <;> rfl

theorem composeAfter_next (d : Device) (pos : ScanPos) (h : d.scan.setup.next pos ≠ .frame 0 0) :
    d.composeAfter pos = { d with scan := { d.scan with
      composing := d.pixelBackground (d.scan.setup.next pos)
      reads := d.pixelReads (d.scan.setup.next pos) } } := by
  rw [Device.composeAfter, if_neg h, compose_eq]

theorem driveFirst_eq (d : Device) (h : d.scan.setup.next (.frame 0 0) ≠ .frame 0 0) : d.driveFirst =
    { d with scan := { d.scan with
        driven := d.scan.composing
        opening := false
        composing := d.pixelBackground (d.scan.setup.next (.frame 0 0))
        reads := d.pixelReads (d.scan.setup.next (.frame 0 0)) } } :=
  composeAfter_next { d with scan := { d.scan with driven := d.scan.composing, opening := false } } (.frame 0 0) h

/-- A period other than the first of the active region drives the pixel just composed, and the next one's composition
begins. -/
theorem enterPeriod_later (d : Device) (pos : ScanPos) (h : pos ≠ .frame 0 0)
    (hnext : d.scan.setup.next pos ≠ .frame 0 0) : d.enterPeriod pos = { d with scan := { d.scan with
      position := some pos
      driven := if d.scan.setup.activeAt pos then d.scan.composing else 0
      composing := d.pixelBackground (d.scan.setup.next pos)
      reads := d.pixelReads (d.scan.setup.next pos) } } :=
  (if_neg h).trans (composeAfter_next _ pos hnext)

/-- Before the active region no composition begins. -/
theorem enterPeriod_lastBlank (d : Device) (pos : ScanPos) (h : pos ≠ .frame 0 0)
    (hnext : d.scan.setup.next pos = .frame 0 0) : d.enterPeriod pos = { d with scan := { d.scan with
      position := some pos
      driven := if d.scan.setup.activeAt pos then d.scan.composing else 0
      composing := 0
      reads := [] } } :=
  (if_neg h).trans (if_pos hnext)

/-- The first period of the active region, its own pixel still to be composed. -/
theorem enterPeriod_first_reads (d : Device) (h : d.pixelReads (.frame 0 0) ≠ []) : d.enterPeriod (.frame 0 0) =
    { d with scan := { d.scan with
        position := some (.frame 0 0)
        driven := 0
        composing := d.pixelBackground (.frame 0 0)
        reads := d.pixelReads (.frame 0 0)
        opening := true } } := by
  have hreads : (d.pixelReads (.frame 0 0)).isEmpty = false := by rw [List.isEmpty_eq_false_iff]; exact h
  rw [Device.enterPeriod, if_pos rfl, Device.openRegion, compose_eq]
  exact if_neg (Bool.eq_false_iff.1 hreads)

/-- The first period of the active region, with no read for its pixel. -/
theorem enterPeriod_first_empty (d : Device) (h : d.pixelReads (.frame 0 0) = [])
    (hnext : d.scan.setup.next (.frame 0 0) ≠ .frame 0 0) : d.enterPeriod (.frame 0 0) =
    { d with scan := { d.scan with
        position := some (.frame 0 0)
        driven := d.pixelBackground (.frame 0 0)
        composing := d.pixelBackground (d.scan.setup.next (.frame 0 0))
        reads := d.pixelReads (d.scan.setup.next (.frame 0 0))
        opening := false } } := by
  have hreads : (d.pixelReads (.frame 0 0)).isEmpty = true := by rw [h]; rfl
  rw [Device.enterPeriod, if_pos rfl, Device.openRegion, compose_eq]
  exact (if_pos hreads).trans (driveFirst_eq _ hnext)

/-! ## PIXEL_PERIOD (R72, R79) -/

theorem exec_pixelPeriod (s : State) : exec .pixelPeriod s
    = .next (s.withDevice (if s.dev.periodEnds then s.dev.pixelPeriod else s.dev)) := rfl

theorem periodEnds_iff (d : Device) : d.periodEnds = true ↔
    d.scan.position ≠ none ∧ d.scan.position ≠ some d.scan.setup.boundary ∧ d.scan.reads = [] := by
  simp only [Device.periodEnds, Bool.and_eq_true, bne_iff_ne, Option.isSome_iff_ne_none, List.isEmpty_iff, and_assoc]

theorem exec_pixelPeriod_stays (s : State) (h : ¬ s.dev.periodEnds = true) : exec .pixelPeriod s = .next s := by
  rw [exec_pixelPeriod, if_neg h]
  rfl

theorem exec_pixelPeriod_enters (s : State) (p : ScanPos) (hp : s.dev.scan.position = some p)
    (hb : p ≠ s.dev.scan.setup.boundary) (hr : s.dev.scan.reads = []) :
    exec .pixelPeriod s = .next (s.withDevice (s.dev.enterPeriod (s.dev.scan.setup.next p))) := by
  have hends : s.dev.periodEnds = true := by
    rw [periodEnds_iff, hp]
    exact ⟨Option.some_ne_none p, fun h => hb (Option.some.inj h), hr⟩
  rw [exec_pixelPeriod, if_pos hends]
  simp only [Device.pixelPeriod, hp]

/-! ## The shape of a frame (R79, R82) -/

theorem next_in_line (p : PanelSetup) (line k : Nat) (h : k + 1 < p.activeWidth + p.hBlank) :
    p.next (.leadIn line k) = .leadIn line (k + 1) ∧ p.next (.frame line k) = .frame line (k + 1) :=
  ⟨if_pos h, if_pos h⟩

theorem next_leadIn_end (p : PanelSetup) (line k : Nat) (h : p.activeWidth + p.hBlank ≤ k + 1) :
    p.next (.leadIn line k) = if line + 1 < p.vBlank then .leadIn (line + 1) 0 else .frame 0 0 :=
  if_neg (Nat.not_lt.2 h)

theorem next_frame_end (p : PanelSetup) (line k : Nat) (h : p.activeWidth + p.hBlank ≤ k + 1) :
    p.next (.frame line k) = if line + 1 < p.activeHeight + p.vBlank then .frame (line + 1) 0 else .frame 0 0 :=
  if_neg (Nat.not_lt.2 h)

theorem activeAt_frame_iff (p : PanelSetup) (line k : Nat) :
    p.activeAt (.frame line k) = true ↔ line < p.activeHeight ∧ k < p.activeWidth := by
  simp only [PanelSetup.activeAt, Bool.and_eq_true, decide_eq_true_eq]

/-- The walk of a frame as the obligation states it. -/
theorem frameShape (p : PanelSetup) (line k : Nat) :
    (k + 1 < p.activeWidth + p.hBlank →
      p.next (.leadIn line k) = .leadIn line (k + 1) ∧ p.next (.frame line k) = .frame line (k + 1))
    ∧ (p.activeWidth + p.hBlank ≤ k + 1 →
      (line + 1 < p.vBlank → p.next (.leadIn line k) = .leadIn (line + 1) 0)
      ∧ (p.vBlank ≤ line + 1 → p.next (.leadIn line k) = .frame 0 0)
      ∧ (line + 1 < p.activeHeight + p.vBlank → p.next (.frame line k) = .frame (line + 1) 0)
      ∧ (p.activeHeight + p.vBlank ≤ line + 1 → p.next (.frame line k) = .frame 0 0))
    ∧ p.activeAt (.leadIn line k) = false
    ∧ (p.activeAt (.frame line k) = true ↔ line < p.activeHeight ∧ k < p.activeWidth) := by
  refine ⟨next_in_line p line k, fun hend => ?_, rfl, activeAt_frame_iff p line k⟩
  rw [next_leadIn_end p line k hend, next_frame_end p line k hend]
  exact ⟨fun h => if_pos h, fun h => if_neg (Nat.not_lt.2 h), fun h => if_pos h, fun h => if_neg (Nat.not_lt.2 h)⟩

/-! ## FRAME_BOUNDARY (R84, R85) -/

theorem exec_frameBoundary (s : State) : exec .frameBoundary s = .next (s.withDevice
    (if s.dev.scan.position = some s.dev.scan.setup.boundary then s.dev.frameBoundary.settle else s.dev)) := rfl

theorem exec_frameBoundary_drains (s : State) (hpos : s.dev.scan.position = some s.dev.scan.setup.boundary)
    (h : s.dev.scan.state = .draining) :
    exec .frameBoundary s = .next (s.withDevice s.dev.boundaryWork.endScan.settle) := by
  rw [exec_frameBoundary, if_pos hpos, Device.frameBoundary]
  simp only [if_pos h]

theorem exec_frameBoundary_runs (s : State) (hpos : s.dev.scan.position = some s.dev.scan.setup.boundary)
    (h : s.dev.scan.state ≠ .draining) : exec .frameBoundary s = .next (s.withDevice (s.dev.boundaryWork.enterPeriod
      (.frame (s.dev.scan.setup.activeHeight - 1) s.dev.scan.setup.activeWidth)).settle) := by
  rw [exec_frameBoundary, if_pos hpos, Device.frameBoundary]
  simp only [if_neg h]

theorem exec_frameBoundary_elsewhere (s : State) (hpos : s.dev.scan.position ≠ some s.dev.scan.setup.boundary) :
    exec .frameBoundary s = .next s := by
  rw [exec_frameBoundary, if_neg hpos]
  rfl

/-- What the draining boundary leaves of the scan engine. -/
theorem endScan_eq (d : Device) : d.endScan = { d with
    scan := { d.scan with state := .stopped, position := none, driven := 0, composing := 0, reads := [], opening := false }
    events := { d.events with latched := d.events.latched ||| 0x0400 } } := rfl

theorem boundaryWork_setup (d : Device) : d.boundaryWork.scan.setup = d.scan.setup := by
  rw [Device.boundaryWork, applyPoint_scan]
  rfl

/-- The first blank period of the last active line: what follows it in the line is blank too. -/
theorem enterPeriod_lastLine (d : Device) (hw : 1 ≤ d.scan.setup.activeWidth) (hb : 2 ≤ d.scan.setup.hBlank) :
    d.enterPeriod (.frame (d.scan.setup.activeHeight - 1) d.scan.setup.activeWidth) = { d with scan := { d.scan with
      position := some (.frame (d.scan.setup.activeHeight - 1) d.scan.setup.activeWidth)
      driven := 0
      composing := 0
      reads := [] } } := by
  have hblank : ∀ k, d.scan.setup.activeWidth ≤ k →
      d.scan.setup.activeAt (.frame (d.scan.setup.activeHeight - 1) k) = false := fun k hk => by
    rw [← Bool.not_eq_true, activeAt_frame_iff]
    exact fun h => absurd h.2 (Nat.not_lt.2 hk)
  have hnext := (next_in_line d.scan.setup (d.scan.setup.activeHeight - 1) d.scan.setup.activeWidth (by omega)).2
  have hne : ∀ k, 1 ≤ k → ScanPos.frame (d.scan.setup.activeHeight - 1) k ≠ .frame 0 0 := fun k hk h => by
    have := (ScanPos.frame.inj h).2
    omega
  rw [enterPeriod_later d _ (hne _ hw) (hnext ▸ hne _ (by omega))]
  simp only [hnext, Device.pixelBackground, Device.pixelReads, hblank _ (Nat.le_refl _), hblank _ (Nat.le_succ _),
    Bool.false_eq_true, if_false]

/-! ## The levels of the panel output (R80) -/

theorem panelLevels_stopped (d : Device) (h : d.scan.position = none) : d.panelLevels
    = ⟨false, false, 0, syncLevel d.scan.setup.hPolarity false, syncLevel d.scan.setup.vPolarity false⟩ := by
  simp only [Device.panelLevels, h]

theorem panelLevels_active (d : Device) (pos : ScanPos) (h : d.scan.position = some pos)
    (ha : d.scan.setup.activeAt pos = true) : d.panelLevels
    = ⟨true, true, if d.scan.opening then d.composed else d.scan.driven,
      syncLevel d.scan.setup.hPolarity (d.scan.setup.hSyncAt pos),
      syncLevel d.scan.setup.vPolarity (d.scan.setup.vSyncAt pos)⟩ := by
  simp only [Device.panelLevels, h, ha, if_true]

theorem panelLevels_blank (d : Device) (pos : ScanPos) (h : d.scan.position = some pos)
    (ha : d.scan.setup.activeAt pos = false) : d.panelLevels
    = ⟨true, false, 0, syncLevel d.scan.setup.hPolarity (d.scan.setup.hSyncAt pos),
      syncLevel d.scan.setup.vPolarity (d.scan.setup.vSyncAt pos)⟩ := by
  simp only [Device.panelLevels, h, ha, Bool.false_eq_true, if_false]

theorem hSyncAt_iff (p : PanelSetup) (pos : ScanPos) :
    p.hSyncAt pos = true ↔ p.activeWidth + 2 ≤ pos.period ∧ pos.period ≤ p.activeWidth + 5 := by
  simp only [PanelSetup.hSyncAt, Bool.and_eq_true, decide_eq_true_eq]

/-- The levels of the output by position, as the obligation states them. -/
theorem panelLevels_by_position (d : Device) :
    (d.scan.position = none →
      d.panelLevels
        = ⟨false, false, 0, syncLevel d.scan.setup.hPolarity false, syncLevel d.scan.setup.vPolarity false⟩)
    ∧ ∀ (line k : Nat) (hSync : Bool),
      (hSync = true ↔ d.scan.setup.activeWidth + 2 ≤ k ∧ k ≤ d.scan.setup.activeWidth + 5) →
      (d.scan.position = some (.leadIn line k) →
        d.panelLevels
          = ⟨true, false, 0, syncLevel d.scan.setup.hPolarity hSync, syncLevel d.scan.setup.vPolarity (line == 0)⟩)
      ∧ (d.scan.position = some (.frame line k) →
        (line < d.scan.setup.activeHeight → k < d.scan.setup.activeWidth →
          d.panelLevels
            = ⟨true, true,
                if d.scan.opening then
                  d.scan.reads.foldl (fun below r => blend r.opacity (d.store.readPixel r.pos) below) d.scan.composing
                else d.scan.driven,
                syncLevel d.scan.setup.hPolarity false, syncLevel d.scan.setup.vPolarity false⟩)
        ∧ ((d.scan.setup.activeHeight ≤ line ∨ d.scan.setup.activeWidth ≤ k) →
          d.panelLevels = ⟨true, false, 0, syncLevel d.scan.setup.hPolarity hSync,
            syncLevel d.scan.setup.vPolarity (line == d.scan.setup.activeHeight)⟩)) := by
  refine ⟨panelLevels_stopped d, fun line k hSync hsync => ⟨fun hpos => ?leadIn, fun hpos =>
    ⟨fun hline hk => ?active, fun hout => ?blank⟩⟩⟩
  case leadIn =>
    have heq : d.scan.setup.hSyncAt (.leadIn line k) = hSync := Bool.eq_iff_iff.2 ((hSyncAt_iff _ _).trans hsync.symm)
    rw [panelLevels_blank d _ hpos rfl, heq]
    rfl
  case active =>
    have hquiet : d.scan.setup.hSyncAt (.frame line k) = false := by
      rw [← Bool.not_eq_true, hSyncAt_iff]
      change ¬ (d.scan.setup.activeWidth + 2 ≤ k ∧ _)
      omega
    have hlow : d.scan.setup.vSyncAt (.frame line k) = false := beq_false_of_ne (Nat.ne_of_lt hline)
    rw [panelLevels_active d _ hpos ((activeAt_frame_iff _ _ _).2 ⟨hline, hk⟩), hquiet, hlow]
    rfl
  case blank =>
    have heq : d.scan.setup.hSyncAt (.frame line k) = hSync := Bool.eq_iff_iff.2 ((hSyncAt_iff _ _).trans hsync.symm)
    have hblank : d.scan.setup.activeAt (.frame line k) = false := by
      rw [← Bool.not_eq_true, activeAt_frame_iff]
      omega
    rw [panelLevels_blank d _ hpos hblank, heq]
    rfl

/-- Settles O29: the walk of a frame, the period by its successor, the boundary by the scan state, and the levels by the
position. -/
theorem framesScanned : Obligations.FramesScanned := by
  refine ⟨frameShape, fun s hstay => exec_pixelPeriod_stays s ?stays,
    fun s p q hp hb hq => ⟨fun hreads => ?waits, ?enters⟩,
    fun s applied happlied => ⟨fun hpos => ⟨fun hdrain => ?drains, fun hrun => ?runs, fun hrun hw hh => ?blankLine⟩,
      fun hpos => ?notBoundary⟩,
    fun d level hlevel => ?levels⟩
  case stays =>
    rw [periodEnds_iff]
    exact fun ⟨hsome, hboundary, _⟩ => hstay.elim hsome hboundary
  case waits =>
    exact exec_pixelPeriod_stays s fun h => hreads ((periodEnds_iff s.dev).1 h).2.2
  case enters =>
    intro background reads hbackground hreads hnone
    obtain rfl : background = s.dev.pixelBackground := funext hbackground
    obtain rfl : reads = s.dev.pixelReads := funext fun pos => by
      cases pos with
      | leadIn line k => exact (hreads line k).1
      | frame line k => exact (hreads line k).2
    rw [exec_pixelPeriod_enters s p hp hb hnone, ← hq]
    refine ⟨fun hlater hnext => ?later, fun hlater hnext => ?lastBlank, ?firstReads, ?firstEmpty⟩
    case later => rw [enterPeriod_later _ q hlater hnext]
    case lastBlank => rw [enterPeriod_lastBlank _ q hlater hnext]
    case firstReads =>
      rintro rfl hsome
      rw [enterPeriod_first_reads _ hsome]
    case firstEmpty =>
      rintro rfl hempty hnext
      rw [enterPeriod_first_empty _ hempty hnext]
  case drains =>
    have hwork : applied = s.dev.boundaryWork := happlied
    rw [exec_frameBoundary_drains s hpos hdrain, hwork, endScan_eq]
  case runs =>
    have hwork : applied = s.dev.boundaryWork := happlied
    rw [exec_frameBoundary_runs s hpos hrun, hwork]
  case blankLine =>
    have hwork : applied = s.dev.boundaryWork := happlied
    have hsetup := boundaryWork_setup s.dev
    rw [exec_frameBoundary_runs s hpos hrun, hwork]
    rw [← hsetup] at hw hh ⊢
    rw [enterPeriod_lastLine _ hw hh]
  case notBoundary => exact exec_frameBoundary_elsewhere s hpos
  case levels =>
    obtain rfl : level = syncLevel := funext fun polarity => funext fun active => by
      cases polarity with
      | activeLow => exact (hlevel active).2
      | activeHigh => exact (hlevel active).1
    exact panelLevels_by_position d

/-! ## SCAN_READ_COMPLETE (R69 to R72) -/

theorem covers_iff (r : Surface) (px py : Nat) : r.covers px py = true ↔ r.committed.x ≤ px
    ∧ px < r.committed.x + r.width ∧ r.committed.y ≤ py ∧ py < r.committed.y + r.height := by
  simp only [Surface.covers, Bool.and_eq_true, decide_eq_true_eq, and_assoc]

theorem exec_scanReadComplete (s : State) : exec .scanReadComplete s
    = .next (s.withDevice (if s.dev.grants .scan then s.dev.completeScanRead else s.dev)) := rfl

/-- A read of a pixel whose other reads are still to come, or of a pixel other than the first of the region. -/
theorem completeScanRead_blends (d : Device) (r : ScanRead) (rest : List ScanRead) (h : d.scan.reads = r :: rest)
    (hmore : d.scan.opening = false ∨ rest ≠ []) : d.completeScanRead = { d with scan := { d.scan with
      composing := blend r.opacity (d.store.readPixel r.pos) d.scan.composing
      reads := rest } } := by
  have hno : ¬ (d.scan.opening && rest.isEmpty) = true := by
    rw [Bool.and_eq_true, List.isEmpty_iff]
    exact fun ⟨hopening, hempty⟩ => hmore.elim (fun h => by rw [hopening] at h; exact nomatch h) (· hempty)
  simp only [Device.completeScanRead, h]
  exact if_neg hno

/-- The last read of panel pixel (0, 0) drives it. -/
theorem completeScanRead_drives (d : Device) (r : ScanRead) (h : d.scan.reads = [r]) (hopening : d.scan.opening = true)
    (hnext : d.scan.setup.next (.frame 0 0) ≠ .frame 0 0) : d.completeScanRead = { d with scan := { d.scan with
      driven := blend r.opacity (d.store.readPixel r.pos) d.scan.composing
      opening := false
      composing := d.pixelBackground (d.scan.setup.next (.frame 0 0))
      reads := d.pixelReads (d.scan.setup.next (.frame 0 0)) } } := by
  simp only [Device.completeScanRead, h]
  exact (if_pos (by rw [hopening]; rfl)).trans (driveFirst_eq _ hnext)

/-- Settles O31: what covers a panel pixel, the read as it completes, and the output as it stays. -/
theorem panelPixelComposed : Obligations.PanelPixelComposed := by
  refine ⟨?layers, fun s => ⟨fun hnone => ?noRead, ?read⟩, fun s => ?output⟩
  case layers =>
    rintro d px py h r rfl
    refine ⟨?covered, ?uncovered, rfl⟩
    case covered =>
      rintro ⟨hx, hxw, hw, hy, hyh, hh, hopaque⟩
      exact if_pos ⟨(covers_iff _ _ _).2 ⟨hx, by omega, hy, by omega⟩, hopaque⟩
    case uncovered =>
      intro hout
      refine if_neg fun ⟨hcovers, hopaque⟩ => ?_
      obtain ⟨hx, hxw, hy, hyh⟩ := (covers_iff _ _ _).1 hcovers
      rcases hout with h | h | h | h | h
      · exact absurd hx (Nat.not_le.2 h)
      · exact absurd hxw (Nat.not_lt.2 h)
      · exact absurd hy (Nat.not_le.2 h)
      · exact absurd hyh (Nat.not_lt.2 h)
      · exact hopaque h
  case noRead =>
    rw [exec_scanReadComplete, if_neg fun h => (grants_scan_iff s.dev).1 h hnone]
    rfl
  case read =>
    rintro r rest value hreads rfl
    rw [exec_scanReadComplete, if_pos ((grants_scan_iff s.dev).2 (by rw [hreads]; exact List.cons_ne_nil r rest))]
    refine ⟨fun hmore => by rw [completeScanRead_blends s.dev r rest hreads hmore], ?_⟩
    rintro hopening rfl line k hnext hne
    have hlater : s.dev.scan.setup.next (.frame 0 0) ≠ .frame 0 0 := by
      rw [hnext]
      intro heq
      cases heq
      exact hne rfl
    rw [completeScanRead_drives s.dev r hreads hopening hlater, hnext]
    rfl
  case output =>
    refine ⟨_, exec_scanReadComplete s, ?_⟩
    split
    · exact completeScanRead_panelLevels s.dev
    · rfl

end Sys2Proof.Machine
end
